-- ==== Sys2Proof/Word.lean ====
section
/-! DEFINITION. The two word types of the machine: 00_scope.md R2 (every data value, every register but PC and
every memory location is 8 bits wide) and R3 (addresses and PC are 16 bits wide). -/

namespace Sys2Proof

/-- A data value, a register other than PC, a memory location (R2). -/
abbrev Byte := BitVec 8

/-- An address or PC (R3). -/
abbrev Word := BitVec 16

end Sys2Proof
end

