-- ==== Sys2Proof/Config.lean ====
section
/-! DEFINITION. The named parameters of 00_scope.md section 3 and 92_eei_decisions.md, each with the spec's default,
or with no value where the spec leaves it OPEN. The meanings hand each parameter to a shared operation that is
written for every value of it, so a statement can be made about the other choice too. -/

namespace Sys2Proof

/-- The two carry rules of a compare (42_alu.md R138, D14). -/
inductive CmpCarry where
  | signed
  | unsigned
  deriving DecidableEq, Repr

/-- The two readings of ADC and SBC with P.D = 1 (42_alu.md R139, D13). -/
inductive DecimalPolicy where
  | binary
  | refuse
  deriving DecidableEq, Repr

namespace Config

/-- `readOopsDummyRead` (D11), OPEN: whether the read-class oops cycle is a dummy read of the uncorrected address or
a dead cycle. A free value: the constant has no body, so no proof can see it (log entry 6). -/
opaque readOopsDummyRead : Bool

/-- `cmpCarry` (D14): the spec's default and the source's normative behaviour. DESIGN CHOICE, log entry 7. -/
def cmpCarry : CmpCarry := .signed

/-- `phaSetsNZ` (D16): the spec's default, the source's text. DESIGN CHOICE, log entry 8. -/
def phaSetsNZ : Bool := true

/-- `decimalPolicy` (D13): the spec's default. DESIGN CHOICE, log entry 9. -/
def decimalPolicy : DecimalPolicy := .binary

end Config

end Sys2Proof
end

