-- ==== Sys2Proof/Machine/Bits.lean ====
section
/-! DEFINITION. The bit-field, byte-order and sign-extension helpers of the spec's own table of symbols
(00_scope.md section 4). -/

namespace Sys2Proof

/-- `lo(w)`, bits 7 to 0 of a word. -/
def lo (w : Word) : Byte := w.setWidth 8

/-- `hi(w)`, bits 15 to 8 of a word. -/
def hi (w : Word) : Byte := BitVec.ofNat 8 (w.toNat / 256)

/-- `w16(h, l)`, the word `h * 256 + l`. -/
def w16 (h l : Byte) : Word := BitVec.ofNat 16 (h.toNat * 256 + l.toNat)

/-- `zext_16(v)`. -/
def zext16 (v : Byte) : Word := v.setWidth 16

/-- `sext_16(v)`: `v` if bit 7 is 0, else `v + 0xFF00`. -/
def sext16 (v : Byte) : Word := v.signExtend 16

/-- `sint8(v)`, the byte read as a two's-complement integer in -128..127. -/
def sint8 (v : Byte) : Int := v.toInt

/-- One bit of a byte replaced, the others kept (10_state.md R24: a write of one flag changes only that bit). -/
def setBit (i : Nat) (v : Bool) (p : Byte) : Byte :=
  if v then p ||| (1#8 <<< i) else p &&& ~~~(1#8 <<< i)

/-- `crossed` of 40_sequencer_addressing.md R103: the high byte changes. -/
def crossed (base ea : Word) : Bool := hi ea != hi base

/-- `uncorrected` of R103: the address before the carry into the high byte. -/
def uncorrected (base ea : Word) : Word := w16 (hi base) (lo ea)

end Sys2Proof
end

