-- ==== Sys2Proof/Machine/State.lean ====
section
/-! DEFINITION. The state of the machine, every piece the spec gives it (10_state.md R10 to R27, 20_memory.md R59,
40_sequencer_addressing.md R80), the reasons a step can stop, and the state right after reset. -/

namespace Sys2Proof.Machine

/-- One bus event (00_scope.md section 5; 40_sequencer_addressing.md R81): each costs one cycle. -/
inductive BusEvent where
  | read (addr : Word) (value : Byte)
  | write (addr : Word) (value : Byte)
  | dead
  deriving DecidableEq, Repr

/-- The bits of P by name (10_state.md R16 to R23); `u` is bit 5, which has no flag meaning (R21). -/
inductive Flag where
  | c | z | i | d | b | u | v | n
  deriving DecidableEq, Repr

/-- Memory: pairs of address and byte, addresses strictly rising, no entry equal to what an unlisted address reads
as (`Memory.wf` in Machine/Memory.lean). -/
abbrev Memory := List Host.Cell

/-- The state between two commands. -/
structure State where
  /-- A (R10) -/
  a : Byte
  /-- X (R11) -/
  x : Byte
  /-- Y (R12) -/
  y : Byte
  /-- S, an offset into page 0x01 (R13) -/
  sp : Byte
  /-- P, all 8 bits stored (R15) -/
  p : Byte
  /-- PC (R14) -/
  pc : Word
  /-- the cycle counter (R25) -/
  cycles : Nat
  /-- the contents of the Memory the reference names (20_memory.md R59) -/
  mem : Memory
  /-- whether that Memory exists (R26) -/
  memPresent : Bool
  /-- the opcode and address of an undefined opcode that ended a step (60_exceptions.md R232) -/
  faulted : Option (Byte × Word)
  /-- the bus trace of the latest command (40_sequencer_addressing.md R80, R82); the model's own field, log entry 4 -/
  trace : List BusEvent
  deriving DecidableEq, Repr

/-- Why a step ends in a fault. -/
inductive Fault where
  /-- Raised by a step whose opcode byte is one of the 105 undefined ones (60_exceptions.md R231), and again by every
  later step until reset (R232). `op` and `addr` are what the spec reports to the host; `left` is the state the fault
  leaves, from which the host may reset (log entry 3). SAFE: the spec itself ends the step here. -/
  | undefinedOpcode (op : Byte) (addr : Word) (left : State)
  deriving DecidableEq, Repr

/-- Why a step has no meaning. -/
inductive Refusal where
  /-- An instruction that has no meaning yet; no arm of exec answers it now. SAFE: nothing is claimed of it. -/
  | notModelled (mnemonic : String)
  /-- ADC or SBC with P.D = 1 under `decimalPolicy = refuse` (42_alu.md R139, D13), raised by `arithOutcome`. Under
  the default policy, which Config holds, no step answers it. SAFE: nothing is claimed of it. -/
  | decimalMode
  deriving DecidableEq, Repr

/-- The outcome of a step or of a meaning. -/
abbrev Out := Host.Outcome State Fault Refusal

/-- The state right after `reset()` (70_reset_and_hazards.md R260 to R262), from a power-on state in which A, X, Y, S,
P and PC are 0 (DESIGN CHOICE, log entry 1; the spec: any value, D4) and nothing is listed in memory (log entry 2):
S has gone down by 3, PC is the word at 0xFFFC/0xFFFD, the two vector reads have cost two cycles. That this is
`resetCommand` of that power-on state is the statement ResetStateIsResetOfPowerOn. -/
def State.reset : State where
  a := 0x00#8
  x := 0x00#8
  y := 0x00#8
  sp := 0xFD#8
  p := 0x00#8
  pc := 0x0000#16
  cycles := 2
  mem := []
  memPresent := true
  faulted := none
  trace := [.read 0xFFFC#16 0x00#8, .read 0xFFFD#16 0x00#8]

end Sys2Proof.Machine
end

