-- ==== Sys2Proof/Machine/Registers.lean ====
section
/-! DEFINITION. The named writes of one field of State, through which every other definition writes it. No register
is hardwired (10_state.md R10 to R15), so a write stores its value as it is. -/

namespace Sys2Proof.Machine.State

/-- `A <- v` (10_state.md R10). -/
def setA (v : Byte) (s : State) : State := { s with a := v }

/-- `X <- v` (R11). -/
def setX (v : Byte) (s : State) : State := { s with x := v }

/-- `Y <- v` (R12). -/
def setY (v : Byte) (s : State) : State := { s with y := v }

/-- `S <- v` (R13). -/
def setSp (v : Byte) (s : State) : State := { s with sp := v }

/-- `P <- v`, all 8 bits, none forced (R15). -/
def setP (v : Byte) (s : State) : State := { s with p := v }

/-- `PC <- v` (R14). -/
def setPc (v : Word) (s : State) : State := { s with pc := v }

/-- Memory replaced as a whole; used by the one write operation of the bus and by the host. -/
def setMem (m : Memory) (s : State) : State := { s with mem := m }

/-- The `faulted` record (60_exceptions.md R231, R232). -/
def setFaulted (r : Option (Byte × Word)) (s : State) : State := { s with faulted := r }

/-- One bus event: appended to the trace, one cycle counted (40_sequencer_addressing.md R81). -/
def event (e : BusEvent) (s : State) : State := { s with trace := s.trace ++ [e], cycles := s.cycles + 1 }

/-- `trace <- []`, how a command begins (R80). -/
def clearTrace (s : State) : State := { s with trace := [] }

end Sys2Proof.Machine.State
end

