-- ==== Sys2Proof/Machine/Flags.lean ====
section
/-! DEFINITION. The flags of P and every flag computation the spec gives: the N/Z convention (R106), the adder (R133,
R134), the compare (R138), the shifts and rotates (R156 to R159), increment and decrement (R150, R151), BIT (R160). -/

namespace Sys2Proof.Machine

/-- The place of a flag in P (10_state.md R16 to R23). -/
def Flag.bit : Flag → Nat
  | .c => 0
  | .z => 1
  | .i => 2
  | .d => 3
  | .b => 4
  | .u => 5
  | .v => 6
  | .n => 7

/-- A flag as P holds it (R24). -/
def State.flag (f : Flag) (s : State) : Bool := s.p.getLsbD f.bit

/-- A write of one flag changes only that bit of P (R24). -/
def State.setFlag (f : Flag) (v : Bool) (s : State) : State := s.setP (setBit f.bit v s.p)

/-- `setNZ(v)` (40_sequencer_addressing.md R106). -/
def setNZ (v : Byte) (s : State) : State := (s.setFlag .n v.msb).setFlag .z (v == 0#8)

/-- The exact sum A + M + carry-in, 0..511 (42_alu.md R133). -/
def adcSum (acc m : Byte) (cin : Bool) : Nat := acc.toNat + m.toNat + cin.toNat

/-- `AddWithCarry(m)` (R133), shared by ADC and SBC. -/
def addWithCarry (m : Byte) (s : State) : State :=
  let sum := adcSum s.a m (s.flag .c)
  let r := BitVec.ofNat 8 sum
  let s1 := s.setFlag .c (decide (sum > 255))
  let s2 := s1.setFlag .v (((s.a ^^^ r) &&& (m ^^^ r) &&& 0x80#8) != 0#8)
  (setNZ r s2).setA r

/-- The carry of a compare under either rule (R138). -/
def compareCarry (rule : CmpCarry) (r m : Byte) : Bool :=
  match rule with
  | .signed => decide (sint8 r ≥ sint8 m)
  | .unsigned => decide (r.toNat ≥ m.toNat)

/-- `Compare(r, m)` (R138); no register is written. -/
def compare (rule : CmpCarry) (r m : Byte) (s : State) : State :=
  setNZ (r - m) (s.setFlag .c (compareCarry rule r m))

/-- ASL's `f(old)` (43_incdec_shift_bit.md R156). -/
def shiftLeft (old : Byte) (s : State) : Byte × State :=
  let new := BitVec.ofNat 8 (old.toNat * 2)
  (new, setNZ new (s.setFlag .c (old.getLsbD 7)))

/-- LSR's `f(old)` (R157): zero-filled, so N becomes 0. -/
def shiftRight (old : Byte) (s : State) : Byte × State :=
  let new := BitVec.ofNat 8 (old.toNat / 2)
  (new, setNZ new (s.setFlag .c (old.getLsbD 0)))

/-- ROL's `f(old)` (R158): the carry-in is read before the carry-out is written. -/
def rotateLeft (old : Byte) (s : State) : Byte × State :=
  let new := BitVec.ofNat 8 (old.toNat * 2 + (s.flag .c).toNat)
  (new, setNZ new (s.setFlag .c (old.getLsbD 7)))

/-- ROR's `f(old)` (R159): N of the result is the carry-in. -/
def rotateRight (old : Byte) (s : State) : Byte × State :=
  let new := BitVec.ofNat 8 (old.toNat / 2 + (s.flag .c).toNat * 0x80)
  (new, setNZ new (s.setFlag .c (old.getLsbD 0)))

/-- INC's `f(old)` (R150): the carry is left alone. -/
def increment (old : Byte) (s : State) : Byte × State := (old + 1#8, setNZ (old + 1#8) s)

/-- DEC's `f(old)` (R151). -/
def decrement (old : Byte) (s : State) : Byte × State := (old - 1#8, setNZ (old - 1#8) s)

/-- The flags of BIT (R160): Z from A & M, N and V from the operand. -/
def bitTest (m : Byte) (s : State) : State :=
  ((s.setFlag .z ((s.a &&& m) == 0#8)).setFlag .n (m.getLsbD 7)).setFlag .v (m.getLsbD 6)

end Sys2Proof.Machine
end

