-- ==== Sys2Proof/Machine/Memory.lean ====
section
/-! DEFINITION. Memory as a flat array of 65,536 bytes (20_memory.md R40, R41; 92_eei_decisions.md D18, the default),
held as a canonical list. A read returns the last write; neither operation fails. -/

namespace Sys2Proof.Machine

/-- What an address that is not listed reads as. The spec leaves the initial contents to the host (R59): DESIGN
CHOICE, log entry 2. -/
def Memory.unlisted : Byte := 0x00#8

/-- `read(address)` of R41. -/
def Memory.read : Memory → Nat → Byte
  | [], _ => Memory.unlisted
  | (k, v) :: m, addr => if k = addr then v else Memory.read m addr

/-- `write(address, value)` of R41, keeping the canonical form. -/
def Memory.write : Memory → Nat → Byte → Memory
  | [], addr, v => if v = Memory.unlisted then [] else [(addr, v)]
  | (k, w) :: m, addr, v =>
    if addr < k then
      if v = Memory.unlisted then (k, w) :: m else (addr, v) :: (k, w) :: m
    else if addr = k then
      if v = Memory.unlisted then m else (addr, v) :: m
    else (k, w) :: Memory.write m addr v

/-- Every listed address is at least `from`, the addresses rise, each is a 16-bit address (R3), and no listed byte is
what an unlisted address reads as. -/
def Memory.wfFrom : Nat → Memory → Bool
  | _, [] => true
  | low, (k, v) :: m =>
    decide (low ≤ k) && decide (k < 65536) && decide (v ≠ Memory.unlisted) && Memory.wfFrom (k + 1) m

/-- The canonical form: equal memories are equal lists. -/
def Memory.wf (m : Memory) : Bool := Memory.wfFrom 0 m

end Sys2Proof.Machine
end

