-- ==== Sys2Proof/Machine/Ops.lean ====
section
/-! DEFINITION. The bus (20_memory.md R42 to R44), the dead cycle (40_sequencer_addressing.md R81), the fetch of one
byte (R83), the stack (20_memory.md R48, R49), and the trap: its entry (45_control.md R212, 60_exceptions.md R234) and
its return (R213, R235). -/

namespace Sys2Proof.Machine

/-- The byte a bus read of `addr` returns: Memory's byte, or 0x00 where Memory is absent (R42, R44). -/
def State.peek (addr : Word) (s : State) : Byte :=
  if s.memPresent then s.mem.read addr.toNat else 0x00#8

/-- `MemRead(addr, 1)` (R42): one bus event. -/
def memRead (addr : Word) (s : State) : Byte × State :=
  (s.peek addr, s.event (.read addr (s.peek addr)))

/-- `MemWrite(addr, 1, v)` (R43): one bus event; where Memory is absent the write is discarded (R44). -/
def memWrite (addr : Word) (v : Byte) (s : State) : State :=
  (if s.memPresent then s.setMem (s.mem.write addr.toNat v) else s).event (.write addr v)

/-- `Dead()` (R81): a cycle with no Memory access. -/
def dead (s : State) : State := s.event .dead

/-- `FetchByte()` (R83): one byte at PC, then PC advances, wrapping. -/
def fetchByte (s : State) : Byte × State :=
  let r := memRead s.pc s
  (r.1, r.2.setPc (s.pc + 1#16))

/-- The stack location an offset names, `0x0100 | S` (10_state.md R13). -/
def stackAddr (sp : Byte) : Word := 0x0100#16 ||| zext16 sp

/-- `Push(v)` (R48): write at `0x0100 | S`, then decrement S, wrapping. -/
def push (v : Byte) (s : State) : State := (memWrite (stackAddr s.sp) v s).setSp (s.sp - 1#8)

/-- `Pull()` (R49): increment S, wrapping, then read at `0x0100 | S`. -/
def pull (s : State) : Byte × State := memRead (stackAddr (s.sp + 1#8)) (s.setSp (s.sp + 1#8))

/-- The low byte's address of the BRK vector (20_memory.md R52). -/
def brkVector : Word := 0xFFFE#16

/-- The low byte's address of the reset vector (20_memory.md R52). -/
def resetVector : Word := 0xFFFC#16

/-- A little-endian word at a vector, two reads, low byte first (20_memory.md R45 to R47). -/
def readVector (v : Word) (s : State) : Word × State :=
  let l := memRead v s
  let h := memRead (v + 1#16) l.2
  (w16 h.1 l.1, h.2)

/-- A return address pushed high byte first (R45), so that it lies little-endian on the stack. -/
def pushWord (w : Word) (s : State) : State := push (lo w) (push (hi w) s)

/-- A return address pulled low byte first (R47). -/
def pullWord (s : State) : Word × State :=
  let l := pull s
  let h := pull l.2
  (w16 h.1 l.1, h.2)

/-- Entry into the software trap once PC is the return address (45_control.md R212; 60_exceptions.md R234): PC high,
PC low and P as stored are pushed, PC is loaded from the vector at 0xFFFE, then B is set; no other flag changes. -/
def trapEntry (s : State) : State :=
  let s1 := push s.p (pushWord s.pc s)
  let v := readVector brkVector s1
  (v.2.setPc v.1).setFlag .b true

/-- Return from the trap (R213, R235): a dead cycle, P pulled with all 8 bits, a dead cycle, PC pulled low then high. -/
def trapReturn (s : State) : State :=
  let p := pull (dead s)
  let r := pullWord (dead (p.2.setP p.1))
  r.2.setPc r.1

/-- What ADC and SBC answer under a decimal policy (42_alu.md R139, D13): `s` is the state the instruction found, `t`
the result of the binary computation. -/
def arithOutcome (policy : DecimalPolicy) (s t : State) : Out :=
  match policy with
  | .binary => .next t
  | .refuse => if s.flag .d then .refused .decimalMode else .next t

end Sys2Proof.Machine
end

