-- ==== Sys2Proof/Syntax.lean ====
section
/-! DEFINITION. The instructions: one constructor for each of the 151 documented rows of spec/opcode_table.json, which
are the documented opcode bytes of 30_encoding.md R63, and one, `undefined`, that stands for the 105 rows UNDEFINED and
carries the opcode byte (log entry 13). A constructor's argument is the operand the instruction's own bytes give: the
byte `d` of format F2, the word `w16(hh, ll)` of format F3 (R60, R61). -/

namespace Sys2Proof

/-- The instructions, in the order of the section files 41 to 45. -/
inductive Instr where
  -- loads and stores (41_load_store.md)
  /-- LDA immediate, A9 (R120) -/
  | ldaImm (d : Byte)
  /-- LDA zero page, A5 (R120) -/
  | ldaZp (d : Byte)
  /-- LDA zero page,X, B5 (R120) -/
  | ldaZpx (d : Byte)
  /-- LDA absolute, AD (R120) -/
  | ldaAbs (w : Word)
  /-- LDA absolute,X, BD (R120) -/
  | ldaAbsx (w : Word)
  /-- LDA absolute,Y, B9 (R120) -/
  | ldaAbsy (w : Word)
  /-- LDA (d,X), A1 (R120) -/
  | ldaIndx (d : Byte)
  /-- LDA (d),Y, B1 (R120) -/
  | ldaIndy (d : Byte)
  /-- LDX immediate, A2 (R121) -/
  | ldxImm (d : Byte)
  /-- LDX zero page, A6 (R121) -/
  | ldxZp (d : Byte)
  /-- LDX zero page,Y, B6 (R121) -/
  | ldxZpy (d : Byte)
  /-- LDX absolute, AE (R121) -/
  | ldxAbs (w : Word)
  /-- LDX absolute,Y, BE (R121) -/
  | ldxAbsy (w : Word)
  /-- LDY immediate, A0 (R122) -/
  | ldyImm (d : Byte)
  /-- LDY zero page, A4 (R122) -/
  | ldyZp (d : Byte)
  /-- LDY zero page,X, B4 (R122) -/
  | ldyZpx (d : Byte)
  /-- LDY absolute, AC (R122) -/
  | ldyAbs (w : Word)
  /-- LDY absolute,X, BC (R122) -/
  | ldyAbsx (w : Word)
  /-- STA zero page, 85 (R123) -/
  | staZp (d : Byte)
  /-- STA zero page,X, 95 (R123) -/
  | staZpx (d : Byte)
  /-- STA absolute, 8D (R123) -/
  | staAbs (w : Word)
  /-- STA absolute,X, 9D (R123) -/
  | staAbsx (w : Word)
  /-- STA absolute,Y, 99 (R123) -/
  | staAbsy (w : Word)
  /-- STA (d,X), 81 (R123) -/
  | staIndx (d : Byte)
  /-- STA (d),Y, 91 (R123) -/
  | staIndy (d : Byte)
  /-- STX zero page, 86 (R124) -/
  | stxZp (d : Byte)
  /-- STX zero page,Y, 96 (R124) -/
  | stxZpy (d : Byte)
  /-- STX absolute, 8E (R124) -/
  | stxAbs (w : Word)
  /-- STY zero page, 84 (R125) -/
  | styZp (d : Byte)
  /-- STY zero page,X, 94 (R125) -/
  | styZpx (d : Byte)
  /-- STY absolute, 8C (R125) -/
  | styAbs (w : Word)
  -- logic, arithmetic and compare (42_alu.md)
  /-- ORA immediate, 09 (R130) -/
  | oraImm (d : Byte)
  /-- ORA zero page, 05 (R130) -/
  | oraZp (d : Byte)
  /-- ORA zero page,X, 15 (R130) -/
  | oraZpx (d : Byte)
  /-- ORA absolute, 0D (R130) -/
  | oraAbs (w : Word)
  /-- ORA absolute,X, 1D (R130) -/
  | oraAbsx (w : Word)
  /-- ORA absolute,Y, 19 (R130) -/
  | oraAbsy (w : Word)
  /-- ORA (d,X), 01 (R130) -/
  | oraIndx (d : Byte)
  /-- ORA (d),Y, 11 (R130) -/
  | oraIndy (d : Byte)
  /-- AND immediate, 29 (R131) -/
  | andImm (d : Byte)
  /-- AND zero page, 25 (R131) -/
  | andZp (d : Byte)
  /-- AND zero page,X, 35 (R131) -/
  | andZpx (d : Byte)
  /-- AND absolute, 2D (R131) -/
  | andAbs (w : Word)
  /-- AND absolute,X, 3D (R131) -/
  | andAbsx (w : Word)
  /-- AND absolute,Y, 39 (R131) -/
  | andAbsy (w : Word)
  /-- AND (d,X), 21 (R131) -/
  | andIndx (d : Byte)
  /-- AND (d),Y, 31 (R131) -/
  | andIndy (d : Byte)
  /-- EOR immediate, 49 (R132) -/
  | eorImm (d : Byte)
  /-- EOR zero page, 45 (R132) -/
  | eorZp (d : Byte)
  /-- EOR zero page,X, 55 (R132) -/
  | eorZpx (d : Byte)
  /-- EOR absolute, 4D (R132) -/
  | eorAbs (w : Word)
  /-- EOR absolute,X, 5D (R132) -/
  | eorAbsx (w : Word)
  /-- EOR absolute,Y, 59 (R132) -/
  | eorAbsy (w : Word)
  /-- EOR (d,X), 41 (R132) -/
  | eorIndx (d : Byte)
  /-- EOR (d),Y, 51 (R132) -/
  | eorIndy (d : Byte)
  /-- ADC immediate, 69 (R133) -/
  | adcImm (d : Byte)
  /-- ADC zero page, 65 (R133) -/
  | adcZp (d : Byte)
  /-- ADC zero page,X, 75 (R133) -/
  | adcZpx (d : Byte)
  /-- ADC absolute, 6D (R133) -/
  | adcAbs (w : Word)
  /-- ADC absolute,X, 7D (R133) -/
  | adcAbsx (w : Word)
  /-- ADC absolute,Y, 79 (R133) -/
  | adcAbsy (w : Word)
  /-- ADC (d,X), 61 (R133) -/
  | adcIndx (d : Byte)
  /-- ADC (d),Y, 71 (R133) -/
  | adcIndy (d : Byte)
  /-- SBC immediate, E9 (R134) -/
  | sbcImm (d : Byte)
  /-- SBC zero page, E5 (R134) -/
  | sbcZp (d : Byte)
  /-- SBC zero page,X, F5 (R134) -/
  | sbcZpx (d : Byte)
  /-- SBC absolute, ED (R134) -/
  | sbcAbs (w : Word)
  /-- SBC absolute,X, FD (R134) -/
  | sbcAbsx (w : Word)
  /-- SBC absolute,Y, F9 (R134) -/
  | sbcAbsy (w : Word)
  /-- SBC (d,X), E1 (R134) -/
  | sbcIndx (d : Byte)
  /-- SBC (d),Y, F1 (R134) -/
  | sbcIndy (d : Byte)
  /-- CMP immediate, C9 (R135) -/
  | cmpImm (d : Byte)
  /-- CMP zero page, C5 (R135) -/
  | cmpZp (d : Byte)
  /-- CMP zero page,X, D5 (R135) -/
  | cmpZpx (d : Byte)
  /-- CMP absolute, CD (R135) -/
  | cmpAbs (w : Word)
  /-- CMP absolute,X, DD (R135) -/
  | cmpAbsx (w : Word)
  /-- CMP absolute,Y, D9 (R135) -/
  | cmpAbsy (w : Word)
  /-- CMP (d,X), C1 (R135) -/
  | cmpIndx (d : Byte)
  /-- CMP (d),Y, D1 (R135) -/
  | cmpIndy (d : Byte)
  /-- CPX immediate, E0 (R136) -/
  | cpxImm (d : Byte)
  /-- CPX zero page, E4 (R136) -/
  | cpxZp (d : Byte)
  /-- CPX absolute, EC (R136) -/
  | cpxAbs (w : Word)
  /-- CPY immediate, C0 (R137) -/
  | cpyImm (d : Byte)
  /-- CPY zero page, C4 (R137) -/
  | cpyZp (d : Byte)
  /-- CPY absolute, CC (R137) -/
  | cpyAbs (w : Word)
  -- increment, decrement, shifts, rotates and BIT (43_incdec_shift_bit.md)
  /-- INC zero page, E6 (R150) -/
  | incZp (d : Byte)
  /-- INC zero page,X, F6 (R150) -/
  | incZpx (d : Byte)
  /-- INC absolute, EE (R150) -/
  | incAbs (w : Word)
  /-- INC absolute,X, FE (R150) -/
  | incAbsx (w : Word)
  /-- DEC zero page, C6 (R151) -/
  | decZp (d : Byte)
  /-- DEC zero page,X, D6 (R151) -/
  | decZpx (d : Byte)
  /-- DEC absolute, CE (R151) -/
  | decAbs (w : Word)
  /-- DEC absolute,X, DE (R151) -/
  | decAbsx (w : Word)
  /-- INX implied, E8 (R152) -/
  | inx
  /-- INY implied, C8 (R153) -/
  | iny
  /-- DEX implied, CA (R154) -/
  | dex
  /-- DEY implied, 88 (R155) -/
  | dey
  /-- ASL accumulator, 0A (R156) -/
  | aslAcc
  /-- ASL zero page, 06 (R156) -/
  | aslZp (d : Byte)
  /-- ASL zero page,X, 16 (R156) -/
  | aslZpx (d : Byte)
  /-- ASL absolute, 0E (R156) -/
  | aslAbs (w : Word)
  /-- ASL absolute,X, 1E (R156) -/
  | aslAbsx (w : Word)
  /-- LSR accumulator, 4A (R157) -/
  | lsrAcc
  /-- LSR zero page, 46 (R157) -/
  | lsrZp (d : Byte)
  /-- LSR zero page,X, 56 (R157) -/
  | lsrZpx (d : Byte)
  /-- LSR absolute, 4E (R157) -/
  | lsrAbs (w : Word)
  /-- LSR absolute,X, 5E (R157) -/
  | lsrAbsx (w : Word)
  /-- ROL accumulator, 2A (R158) -/
  | rolAcc
  /-- ROL zero page, 26 (R158) -/
  | rolZp (d : Byte)
  /-- ROL zero page,X, 36 (R158) -/
  | rolZpx (d : Byte)
  /-- ROL absolute, 2E (R158) -/
  | rolAbs (w : Word)
  /-- ROL absolute,X, 3E (R158) -/
  | rolAbsx (w : Word)
  /-- ROR accumulator, 6A (R159) -/
  | rorAcc
  /-- ROR zero page, 66 (R159) -/
  | rorZp (d : Byte)
  /-- ROR zero page,X, 76 (R159) -/
  | rorZpx (d : Byte)
  /-- ROR absolute, 6E (R159) -/
  | rorAbs (w : Word)
  /-- ROR absolute,X, 7E (R159) -/
  | rorAbsx (w : Word)
  /-- BIT zero page, 24 (R160) -/
  | bitZp (d : Byte)
  /-- BIT absolute, 2C (R160) -/
  | bitAbs (w : Word)
  -- register transfers, stack and flag instructions (44_transfer_stack_flag.md)
  /-- TAX implied, AA (R170) -/
  | tax
  /-- TAY implied, A8 (R171) -/
  | tay
  /-- TXA implied, 8A (R172) -/
  | txa
  /-- TYA implied, 98 (R173) -/
  | tya
  /-- TSX implied, BA (R174) -/
  | tsx
  /-- TXS implied, 9A (R175) -/
  | txs
  /-- PHA implied, 48 (R176) -/
  | pha
  /-- PHP implied, 08 (R177) -/
  | php
  /-- PLA implied, 68 (R178) -/
  | pla
  /-- PLP implied, 28 (R179) -/
  | plp
  /-- CLC implied, 18 (R180) -/
  | clc
  /-- SEC implied, 38 (R181) -/
  | sec
  /-- CLI implied, 58 (R182) -/
  | cli
  /-- SEI implied, 78 (R183) -/
  | sei
  /-- CLV implied, B8 (R184) -/
  | clv
  /-- CLD implied, D8 (R185) -/
  | cld
  /-- SED implied, F8 (R186) -/
  | sed
  -- branches, jumps, subroutines, BRK, RTI, NOP (45_control.md) and the undefined opcode bytes (60_exceptions.md)
  /-- BPL relative, 10 (R201) -/
  | bpl (d : Byte)
  /-- BMI relative, 30 (R202) -/
  | bmi (d : Byte)
  /-- BVC relative, 50 (R203) -/
  | bvc (d : Byte)
  /-- BVS relative, 70 (R204) -/
  | bvs (d : Byte)
  /-- BCC relative, 90 (R205) -/
  | bcc (d : Byte)
  /-- BCS relative, B0 (R206) -/
  | bcs (d : Byte)
  /-- BNE relative, D0 (R207) -/
  | bne (d : Byte)
  /-- BEQ relative, F0 (R208) -/
  | beq (d : Byte)
  /-- JMP absolute, 4C (R209) -/
  | jmpAbs (w : Word)
  /-- JMP indirect, 6C (R209) -/
  | jmpInd (w : Word)
  /-- JSR absolute, 20 (R210) -/
  | jsr (w : Word)
  /-- RTS implied, 60 (R211) -/
  | rts
  /-- BRK implied, 00 (R212) -/
  | brk
  /-- RTI implied, 40 (R213) -/
  | rti
  /-- NOP implied, EA (R214) -/
  | nop
  -- the 105 undefined opcode bytes (30_encoding.md R65, 60_exceptions.md R231)
  /-- UNDEFINED, the opcode byte `op` (R65, R231) -/
  | undefined (op : Byte)
  deriving DecidableEq, Repr

/-- The operations R63 classifies an opcode into, and the undefined ones. -/
inductive Operation where
  | lda | ldx | ldy | sta | stx | sty
  | ora | and | eor | adc | sbc | cmp | cpx | cpy
  | inc | dec | inx | iny | dex | dey | asl | lsr | rol | ror | bit
  | tax | tay | txa | tya | tsx | txs | pha | php | pla | plp | clc | sec | cli | sei | clv | cld | sed
  | bpl | bmi | bvc | bvs | bcc | bcs | bne | beq | jmp | jsr | rts | brk | rti | nop
  | undefined
  deriving DecidableEq, Repr

/-- The thirteen addressing modes (40_sequencer_addressing.md R85 to R97). -/
inductive Mode where
  | imp | acc | imm | zp | zpx | zpy | abs | absx | absy | ind | indx | indy | rel
  deriving DecidableEq, Repr

/-- The operation classes (R84). -/
inductive OpClass where
  | r | w | m | b | j | i | k
  deriving DecidableEq, Repr

/-- The classes of access at an effective address, which decide the index fixup (R98, R99). -/
inductive AccessClass where
  | r | w | m
  deriving DecidableEq, Repr

/-- The addressing modes that name a memory operand, each with the operand the instruction's bytes give. -/
inductive MemMode where
  | zp (d : Byte)
  | zpx (d : Byte)
  | zpy (d : Byte)
  | abs (w : Word)
  | absx (w : Word)
  | absy (w : Word)
  | indx (d : Byte)
  | indy (d : Byte)
  deriving DecidableEq, Repr

/-- An instruction's operand as its bytes give it. -/
inductive Operand where
  | imp
  | acc
  | imm (d : Byte)
  | rel (d : Byte)
  | ind (w : Word)
  | mem (m : MemMode)
  deriving DecidableEq, Repr

end Sys2Proof
end

