-- ==== Sys2Proof/Machine/Operands.lean ====
section
/-! DEFINITION. The addressing modes (40_sequencer_addressing.md R85 to R99) and the access each operation class makes
at the effective address (R100 to R102). The instruction's own bytes have been fetched before (R82): what stands here
is the rest of `Resolve`, after the operand fetches. Implied, Accumulator, Immediate and Relative perform no further
bus event (R85 to R87, R97), so they have no definition here. -/

namespace Sys2Proof.Machine

/-- The read-class oops cycle (R98) under either value of `readOopsDummyRead` (D11). -/
def oopsCycle (dummy : Bool) (unc : Word) (s : State) : State :=
  s.event (if dummy then .read unc (s.peek unc) else .dead)

/-- `IndexFixup(base, ea, cls)` (R98, R99). -/
def indexFixup (base ea : Word) (cls : AccessClass) (s : State) : State :=
  match cls with
  | .r => if crossed base ea then oopsCycle Config.readOopsDummyRead (uncorrected base ea) s else s
  | .w => (memRead (uncorrected base ea) s).2
  | .m => (memRead (uncorrected base ea) s).2

/-- Zero Page (R88). -/
def resolveZp (d : Byte) (s : State) : Word × State := (zext16 d, s)

/-- Zero Page,X (R89): one dead cycle; the sum stays in the zero page. -/
def resolveZpx (d : Byte) (s : State) : Word × State := (zext16 (d + s.x), dead s)

/-- Zero Page,Y (R90). -/
def resolveZpy (d : Byte) (s : State) : Word × State := (zext16 (d + s.y), dead s)

/-- Absolute (R91). -/
def resolveAbs (base : Word) (s : State) : Word × State := (base, s)

/-- Absolute,X (R92). -/
def resolveAbsx (base : Word) (cls : AccessClass) (s : State) : Word × State :=
  (base + zext16 s.x, indexFixup base (base + zext16 s.x) cls s)

/-- Absolute,Y (R93). -/
def resolveAbsy (base : Word) (cls : AccessClass) (s : State) : Word × State :=
  (base + zext16 s.y, indexFixup base (base + zext16 s.y) cls s)

/-- The two reads of a zero-page pointer, the second wrapping within page 0 (20_memory.md R47). -/
def readZpPointer (p : Byte) (s : State) : Word × State :=
  let l := memRead (zext16 p) s
  let h := memRead (zext16 (p + 1#8)) l.2
  (w16 h.1 l.1, h.2)

/-- Indexed Indirect, (d,X) (R95). -/
def resolveIndx (d : Byte) (s : State) : Word × State := readZpPointer (d + s.x) (dead s)

/-- Indirect Indexed, (d),Y (R96). -/
def resolveIndy (d : Byte) (cls : AccessClass) (s : State) : Word × State :=
  let b := readZpPointer d s
  (b.1 + zext16 s.y, indexFixup b.1 (b.1 + zext16 s.y) cls b.2)

/-- Indirect, JMP's only (R94): the high byte is read in the pointer's own page. -/
def resolveInd (ptr : Word) (s : State) : Word × State :=
  let l := memRead ptr s
  let h := memRead (w16 (hi ptr) (lo ptr + 1#8)) l.2
  (w16 h.1 l.1, h.2)

/-- `Resolve(mode, cls)` (R80) for the modes that name a memory operand. -/
def resolve (m : MemMode) (cls : AccessClass) (s : State) : Word × State :=
  match m with
  | .zp d => resolveZp d s
  | .zpx d => resolveZpx d s
  | .zpy d => resolveZpy d s
  | .abs base => resolveAbs base s
  | .absx base => resolveAbsx base cls s
  | .absy base => resolveAbsy base cls s
  | .indx d => resolveIndx d s
  | .indy d => resolveIndy d cls s

/-- Class R (R100): the operand is one read at the effective address, made after `Resolve`; `f` is the operation. -/
def readWith (f : Byte → State → State) (m : MemMode) (s : State) : State :=
  let r := resolve m .r s
  let v := memRead r.1 r.2
  f v.1 v.2

/-- Class W (R101): one write of `v` at the effective address, made after `Resolve`; no flag changes. -/
def storeTo (v : Byte) (m : MemMode) (s : State) : State :=
  let r := resolve m .w s
  memWrite r.1 v r.2

/-- Class M (R102), `ModifyMemory(ea, f)`: read, dead cycle, write of the new value. -/
def modifyMemory (f : Byte → State → Byte × State) (m : MemMode) (s : State) : State :=
  let r := resolve m .m s
  let old := memRead r.1 r.2
  let new := f old.1 (dead old.2)
  memWrite r.1 new.1 new.2

/-- Class M in the Accumulator mode (R102, R86): one dead cycle, A rewritten, no Memory access. -/
def modifyAcc (f : Byte → State → Byte × State) (s : State) : State :=
  let new := f s.a (dead s)
  new.2.setA new.1

/-- The branch common rule (45_control.md R200): taken when the flag has the value; PC is the address after the
2-byte branch. -/
def branch (f : Flag) (value : Bool) (d : Byte) (s : State) : State :=
  if s.flag f = value then
    let t := s.pc + sext16 d
    (if crossed s.pc t then dead (dead s) else dead s).setPc t
  else s

end Sys2Proof.Machine
end

