-- ==== Sys2Proof/Machine/Alu.lean ====
section
/-! DEFINITION. The meanings of logic, arithmetic and compare (42_alu.md).
Each is applied to the state after the instruction's own bytes have been fetched (log entry 11), so PC is the address of
the next instruction. -/

namespace Sys2Proof.Machine

/-- ORA's operation (R130). -/
def orA (m : Byte) (s : State) : State := setNZ (s.a ||| m) (s.setA (s.a ||| m))

/-- AND's operation (R131). -/
def andA (m : Byte) (s : State) : State := setNZ (s.a &&& m) (s.setA (s.a &&& m))

/-- EOR's operation (R132). -/
def eorA (m : Byte) (s : State) : State := setNZ (s.a ^^^ m) (s.setA (s.a ^^^ m))

/-- SBC's operation (R134): the adder on the ones' complement. -/
def subtractWithBorrow (m : Byte) (s : State) : State := addWithCarry (~~~m) s

/-- CMP's operation (R135). -/
def compareA (m : Byte) (s : State) : State := compare Config.cmpCarry s.a m s

/-- CPX's operation (R136). -/
def compareX (m : Byte) (s : State) : State := compare Config.cmpCarry s.x m s

/-- CPY's operation (R137). -/
def compareY (m : Byte) (s : State) : State := compare Config.cmpCarry s.y m s

/-- ORA immediate (R130). -/
def execOraImm (d : Byte) (s : State) : Out := .next (orA d s)

/-- ORA zero page (R130). -/
def execOraZp (d : Byte) (s : State) : Out := .next (readWith orA (.zp d) s)

/-- ORA zero page,X (R130). -/
def execOraZpx (d : Byte) (s : State) : Out := .next (readWith orA (.zpx d) s)

/-- ORA absolute (R130). -/
def execOraAbs (w : Word) (s : State) : Out := .next (readWith orA (.abs w) s)

/-- ORA absolute,X (R130). -/
def execOraAbsx (w : Word) (s : State) : Out := .next (readWith orA (.absx w) s)

/-- ORA absolute,Y (R130). -/
def execOraAbsy (w : Word) (s : State) : Out := .next (readWith orA (.absy w) s)

/-- ORA (d,X) (R130). -/
def execOraIndx (d : Byte) (s : State) : Out := .next (readWith orA (.indx d) s)

/-- ORA (d),Y (R130). -/
def execOraIndy (d : Byte) (s : State) : Out := .next (readWith orA (.indy d) s)

/-- AND immediate (R131). -/
def execAndImm (d : Byte) (s : State) : Out := .next (andA d s)

/-- AND zero page (R131). -/
def execAndZp (d : Byte) (s : State) : Out := .next (readWith andA (.zp d) s)

/-- AND zero page,X (R131). -/
def execAndZpx (d : Byte) (s : State) : Out := .next (readWith andA (.zpx d) s)

/-- AND absolute (R131). -/
def execAndAbs (w : Word) (s : State) : Out := .next (readWith andA (.abs w) s)

/-- AND absolute,X (R131). -/
def execAndAbsx (w : Word) (s : State) : Out := .next (readWith andA (.absx w) s)

/-- AND absolute,Y (R131). -/
def execAndAbsy (w : Word) (s : State) : Out := .next (readWith andA (.absy w) s)

/-- AND (d,X) (R131). -/
def execAndIndx (d : Byte) (s : State) : Out := .next (readWith andA (.indx d) s)

/-- AND (d),Y (R131). -/
def execAndIndy (d : Byte) (s : State) : Out := .next (readWith andA (.indy d) s)

/-- EOR immediate (R132). -/
def execEorImm (d : Byte) (s : State) : Out := .next (eorA d s)

/-- EOR zero page (R132). -/
def execEorZp (d : Byte) (s : State) : Out := .next (readWith eorA (.zp d) s)

/-- EOR zero page,X (R132). -/
def execEorZpx (d : Byte) (s : State) : Out := .next (readWith eorA (.zpx d) s)

/-- EOR absolute (R132). -/
def execEorAbs (w : Word) (s : State) : Out := .next (readWith eorA (.abs w) s)

/-- EOR absolute,X (R132). -/
def execEorAbsx (w : Word) (s : State) : Out := .next (readWith eorA (.absx w) s)

/-- EOR absolute,Y (R132). -/
def execEorAbsy (w : Word) (s : State) : Out := .next (readWith eorA (.absy w) s)

/-- EOR (d,X) (R132). -/
def execEorIndx (d : Byte) (s : State) : Out := .next (readWith eorA (.indx d) s)

/-- EOR (d),Y (R132). -/
def execEorIndy (d : Byte) (s : State) : Out := .next (readWith eorA (.indy d) s)

/-- ADC immediate (R133). -/
def execAdcImm (d : Byte) (s : State) : Out := arithOutcome Config.decimalPolicy s (addWithCarry d s)

/-- ADC zero page (R133). -/
def execAdcZp (d : Byte) (s : State) : Out := arithOutcome Config.decimalPolicy s (readWith addWithCarry (.zp d) s)

/-- ADC zero page,X (R133). -/
def execAdcZpx (d : Byte) (s : State) : Out := arithOutcome Config.decimalPolicy s (readWith addWithCarry (.zpx d) s)

/-- ADC absolute (R133). -/
def execAdcAbs (w : Word) (s : State) : Out := arithOutcome Config.decimalPolicy s (readWith addWithCarry (.abs w) s)

/-- ADC absolute,X (R133). -/
def execAdcAbsx (w : Word) (s : State) : Out :=
  arithOutcome Config.decimalPolicy s (readWith addWithCarry (.absx w) s)

/-- ADC absolute,Y (R133). -/
def execAdcAbsy (w : Word) (s : State) : Out :=
  arithOutcome Config.decimalPolicy s (readWith addWithCarry (.absy w) s)

/-- ADC (d,X) (R133). -/
def execAdcIndx (d : Byte) (s : State) : Out :=
  arithOutcome Config.decimalPolicy s (readWith addWithCarry (.indx d) s)

/-- ADC (d),Y (R133). -/
def execAdcIndy (d : Byte) (s : State) : Out :=
  arithOutcome Config.decimalPolicy s (readWith addWithCarry (.indy d) s)

/-- SBC immediate (R134). -/
def execSbcImm (d : Byte) (s : State) : Out := arithOutcome Config.decimalPolicy s (subtractWithBorrow d s)

/-- SBC zero page (R134). -/
def execSbcZp (d : Byte) (s : State) : Out :=
  arithOutcome Config.decimalPolicy s (readWith subtractWithBorrow (.zp d) s)

/-- SBC zero page,X (R134). -/
def execSbcZpx (d : Byte) (s : State) : Out :=
  arithOutcome Config.decimalPolicy s (readWith subtractWithBorrow (.zpx d) s)

/-- SBC absolute (R134). -/
def execSbcAbs (w : Word) (s : State) : Out :=
  arithOutcome Config.decimalPolicy s (readWith subtractWithBorrow (.abs w) s)

/-- SBC absolute,X (R134). -/
def execSbcAbsx (w : Word) (s : State) : Out :=
  arithOutcome Config.decimalPolicy s (readWith subtractWithBorrow (.absx w) s)

/-- SBC absolute,Y (R134). -/
def execSbcAbsy (w : Word) (s : State) : Out :=
  arithOutcome Config.decimalPolicy s (readWith subtractWithBorrow (.absy w) s)

/-- SBC (d,X) (R134). -/
def execSbcIndx (d : Byte) (s : State) : Out :=
  arithOutcome Config.decimalPolicy s (readWith subtractWithBorrow (.indx d) s)

/-- SBC (d),Y (R134). -/
def execSbcIndy (d : Byte) (s : State) : Out :=
  arithOutcome Config.decimalPolicy s (readWith subtractWithBorrow (.indy d) s)

/-- CMP immediate (R135). -/
def execCmpImm (d : Byte) (s : State) : Out := .next (compareA d s)

/-- CMP zero page (R135). -/
def execCmpZp (d : Byte) (s : State) : Out := .next (readWith compareA (.zp d) s)

/-- CMP zero page,X (R135). -/
def execCmpZpx (d : Byte) (s : State) : Out := .next (readWith compareA (.zpx d) s)

/-- CMP absolute (R135). -/
def execCmpAbs (w : Word) (s : State) : Out := .next (readWith compareA (.abs w) s)

/-- CMP absolute,X (R135). -/
def execCmpAbsx (w : Word) (s : State) : Out := .next (readWith compareA (.absx w) s)

/-- CMP absolute,Y (R135). -/
def execCmpAbsy (w : Word) (s : State) : Out := .next (readWith compareA (.absy w) s)

/-- CMP (d,X) (R135). -/
def execCmpIndx (d : Byte) (s : State) : Out := .next (readWith compareA (.indx d) s)

/-- CMP (d),Y (R135). -/
def execCmpIndy (d : Byte) (s : State) : Out := .next (readWith compareA (.indy d) s)

/-- CPX immediate (R136). -/
def execCpxImm (d : Byte) (s : State) : Out := .next (compareX d s)

/-- CPX zero page (R136). -/
def execCpxZp (d : Byte) (s : State) : Out := .next (readWith compareX (.zp d) s)

/-- CPX absolute (R136). -/
def execCpxAbs (w : Word) (s : State) : Out := .next (readWith compareX (.abs w) s)

/-- CPY immediate (R137). -/
def execCpyImm (d : Byte) (s : State) : Out := .next (compareY d s)

/-- CPY zero page (R137). -/
def execCpyZp (d : Byte) (s : State) : Out := .next (readWith compareY (.zp d) s)

/-- CPY absolute (R137). -/
def execCpyAbs (w : Word) (s : State) : Out := .next (readWith compareY (.abs w) s)

end Sys2Proof.Machine
end

