-- ==== Sys2Proof/Machine/Control.lean ====
section
/-! DEFINITION. The meanings of branches, jumps, subroutines, BRK, RTI, NOP (45_control.md) and the undefined opcode bytes (60_exceptions.md).
Each is applied to the state after the instruction's own bytes have been fetched (log entry 11), so PC is the address of
the next instruction. -/

namespace Sys2Proof.Machine

/-- BPL relative (R201). -/
def execBpl (d : Byte) (s : State) : Out := .next (branch .n false d s)

/-- BMI relative (R202). -/
def execBmi (d : Byte) (s : State) : Out := .next (branch .n true d s)

/-- BVC relative (R203). -/
def execBvc (d : Byte) (s : State) : Out := .next (branch .v false d s)

/-- BVS relative (R204). -/
def execBvs (d : Byte) (s : State) : Out := .next (branch .v true d s)

/-- BCC relative (R205). -/
def execBcc (d : Byte) (s : State) : Out := .next (branch .c false d s)

/-- BCS relative (R206). -/
def execBcs (d : Byte) (s : State) : Out := .next (branch .c true d s)

/-- BNE relative (R207). -/
def execBne (d : Byte) (s : State) : Out := .next (branch .z false d s)

/-- BEQ relative (R208). -/
def execBeq (d : Byte) (s : State) : Out := .next (branch .z true d s)

/-- JMP absolute (R209). -/
def execJmpAbs (w : Word) (s : State) : Out := .next (s.setPc w)

/-- JMP indirect (R209). -/
def execJmpInd (w : Word) (s : State) : Out :=
  let r := resolveInd w s
  .next (r.2.setPc r.1)

/-- JSR absolute (R210). -/
def execJsr (w : Word) (s : State) : Out := .next ((pushWord s.pc (dead s)).setPc w)

/-- RTS (R211): three dead cycles, PC pulled low then high, no increment. -/
def execRts (s : State) : Out :=
  let r := pullWord (dead (dead (dead s)))
  .next (r.2.setPc r.1)

/-- BRK (R212): one dead cycle, the byte after the opcode skipped, then the trap entry. -/
def execBrk (s : State) : Out := .next (trapEntry ((dead s).setPc (s.pc + 1#16)))

/-- RTI (R213). -/
def execRti (s : State) : Out := .next (trapReturn s)

/-- NOP (R214). -/
def execNop (s : State) : Out := .next (dead s)

/-- An undefined opcode byte (60_exceptions.md R231), after its one fetch, so that its address is PC - 1: the step
ends in the fault; `faulted` is recorded and nothing else changes. -/
def execUndefined (op : Byte) (s : State) : Out :=
  .fault (.undefinedOpcode op (s.pc - 1#16) (s.setFaulted (some (op, s.pc - 1#16))))

end Sys2Proof.Machine
end

