-- ==== Sys2Proof/Machine/IncDecShift.lean ====
section
/-! DEFINITION. The meanings of increment, decrement, shifts, rotates and BIT (43_incdec_shift_bit.md).
Each is applied to the state after the instruction's own bytes have been fetched (log entry 11), so PC is the address of
the next instruction. -/

namespace Sys2Proof.Machine

/-- INC zero page (R150). -/
def execIncZp (d : Byte) (s : State) : Out := .next (modifyMemory increment (.zp d) s)

/-- INC zero page,X (R150). -/
def execIncZpx (d : Byte) (s : State) : Out := .next (modifyMemory increment (.zpx d) s)

/-- INC absolute (R150). -/
def execIncAbs (w : Word) (s : State) : Out := .next (modifyMemory increment (.abs w) s)

/-- INC absolute,X (R150). -/
def execIncAbsx (w : Word) (s : State) : Out := .next (modifyMemory increment (.absx w) s)

/-- DEC zero page (R151). -/
def execDecZp (d : Byte) (s : State) : Out := .next (modifyMemory decrement (.zp d) s)

/-- DEC zero page,X (R151). -/
def execDecZpx (d : Byte) (s : State) : Out := .next (modifyMemory decrement (.zpx d) s)

/-- DEC absolute (R151). -/
def execDecAbs (w : Word) (s : State) : Out := .next (modifyMemory decrement (.abs w) s)

/-- DEC absolute,X (R151). -/
def execDecAbsx (w : Word) (s : State) : Out := .next (modifyMemory decrement (.absx w) s)

/-- INX (R152). -/
def execInx (s : State) : Out := .next (setNZ (s.x + 1#8) ((dead s).setX (s.x + 1#8)))

/-- INY (R153). -/
def execIny (s : State) : Out := .next (setNZ (s.y + 1#8) ((dead s).setY (s.y + 1#8)))

/-- DEX (R154). -/
def execDex (s : State) : Out := .next (setNZ (s.x - 1#8) ((dead s).setX (s.x - 1#8)))

/-- DEY (R155). -/
def execDey (s : State) : Out := .next (setNZ (s.y - 1#8) ((dead s).setY (s.y - 1#8)))

/-- ASL accumulator (R156). -/
def execAslAcc (s : State) : Out := .next (modifyAcc shiftLeft s)

/-- ASL zero page (R156). -/
def execAslZp (d : Byte) (s : State) : Out := .next (modifyMemory shiftLeft (.zp d) s)

/-- ASL zero page,X (R156). -/
def execAslZpx (d : Byte) (s : State) : Out := .next (modifyMemory shiftLeft (.zpx d) s)

/-- ASL absolute (R156). -/
def execAslAbs (w : Word) (s : State) : Out := .next (modifyMemory shiftLeft (.abs w) s)

/-- ASL absolute,X (R156). -/
def execAslAbsx (w : Word) (s : State) : Out := .next (modifyMemory shiftLeft (.absx w) s)

/-- LSR accumulator (R157). -/
def execLsrAcc (s : State) : Out := .next (modifyAcc shiftRight s)

/-- LSR zero page (R157). -/
def execLsrZp (d : Byte) (s : State) : Out := .next (modifyMemory shiftRight (.zp d) s)

/-- LSR zero page,X (R157). -/
def execLsrZpx (d : Byte) (s : State) : Out := .next (modifyMemory shiftRight (.zpx d) s)

/-- LSR absolute (R157). -/
def execLsrAbs (w : Word) (s : State) : Out := .next (modifyMemory shiftRight (.abs w) s)

/-- LSR absolute,X (R157). -/
def execLsrAbsx (w : Word) (s : State) : Out := .next (modifyMemory shiftRight (.absx w) s)

/-- ROL accumulator (R158). -/
def execRolAcc (s : State) : Out := .next (modifyAcc rotateLeft s)

/-- ROL zero page (R158). -/
def execRolZp (d : Byte) (s : State) : Out := .next (modifyMemory rotateLeft (.zp d) s)

/-- ROL zero page,X (R158). -/
def execRolZpx (d : Byte) (s : State) : Out := .next (modifyMemory rotateLeft (.zpx d) s)

/-- ROL absolute (R158). -/
def execRolAbs (w : Word) (s : State) : Out := .next (modifyMemory rotateLeft (.abs w) s)

/-- ROL absolute,X (R158). -/
def execRolAbsx (w : Word) (s : State) : Out := .next (modifyMemory rotateLeft (.absx w) s)

/-- ROR accumulator (R159). -/
def execRorAcc (s : State) : Out := .next (modifyAcc rotateRight s)

/-- ROR zero page (R159). -/
def execRorZp (d : Byte) (s : State) : Out := .next (modifyMemory rotateRight (.zp d) s)

/-- ROR zero page,X (R159). -/
def execRorZpx (d : Byte) (s : State) : Out := .next (modifyMemory rotateRight (.zpx d) s)

/-- ROR absolute (R159). -/
def execRorAbs (w : Word) (s : State) : Out := .next (modifyMemory rotateRight (.abs w) s)

/-- ROR absolute,X (R159). -/
def execRorAbsx (w : Word) (s : State) : Out := .next (modifyMemory rotateRight (.absx w) s)

/-- BIT zero page (R160). -/
def execBitZp (d : Byte) (s : State) : Out := .next (readWith bitTest (.zp d) s)

/-- BIT absolute (R160). -/
def execBitAbs (w : Word) (s : State) : Out := .next (readWith bitTest (.abs w) s)

end Sys2Proof.Machine
end

