-- ==== Sys2Proof/Machine/LoadStore.lean ====
section
/-! DEFINITION. The meanings of loads and stores (41_load_store.md).
Each is applied to the state after the instruction's own bytes have been fetched (log entry 11), so PC is the address of
the next instruction. -/

namespace Sys2Proof.Machine

/-- LDA's operation (R120). -/
def loadA (m : Byte) (s : State) : State := setNZ m (s.setA m)

/-- LDX's operation (R121). -/
def loadX (m : Byte) (s : State) : State := setNZ m (s.setX m)

/-- LDY's operation (R122). -/
def loadY (m : Byte) (s : State) : State := setNZ m (s.setY m)

/-- LDA immediate (R120). -/
def execLdaImm (d : Byte) (s : State) : Out := .next (loadA d s)

/-- LDA zero page (R120). -/
def execLdaZp (d : Byte) (s : State) : Out := .next (readWith loadA (.zp d) s)

/-- LDA zero page,X (R120). -/
def execLdaZpx (d : Byte) (s : State) : Out := .next (readWith loadA (.zpx d) s)

/-- LDA absolute (R120). -/
def execLdaAbs (w : Word) (s : State) : Out := .next (readWith loadA (.abs w) s)

/-- LDA absolute,X (R120). -/
def execLdaAbsx (w : Word) (s : State) : Out := .next (readWith loadA (.absx w) s)

/-- LDA absolute,Y (R120). -/
def execLdaAbsy (w : Word) (s : State) : Out := .next (readWith loadA (.absy w) s)

/-- LDA (d,X) (R120). -/
def execLdaIndx (d : Byte) (s : State) : Out := .next (readWith loadA (.indx d) s)

/-- LDA (d),Y (R120). -/
def execLdaIndy (d : Byte) (s : State) : Out := .next (readWith loadA (.indy d) s)

/-- LDX immediate (R121). -/
def execLdxImm (d : Byte) (s : State) : Out := .next (loadX d s)

/-- LDX zero page (R121). -/
def execLdxZp (d : Byte) (s : State) : Out := .next (readWith loadX (.zp d) s)

/-- LDX zero page,Y (R121). -/
def execLdxZpy (d : Byte) (s : State) : Out := .next (readWith loadX (.zpy d) s)

/-- LDX absolute (R121). -/
def execLdxAbs (w : Word) (s : State) : Out := .next (readWith loadX (.abs w) s)

/-- LDX absolute,Y (R121). -/
def execLdxAbsy (w : Word) (s : State) : Out := .next (readWith loadX (.absy w) s)

/-- LDY immediate (R122). -/
def execLdyImm (d : Byte) (s : State) : Out := .next (loadY d s)

/-- LDY zero page (R122). -/
def execLdyZp (d : Byte) (s : State) : Out := .next (readWith loadY (.zp d) s)

/-- LDY zero page,X (R122). -/
def execLdyZpx (d : Byte) (s : State) : Out := .next (readWith loadY (.zpx d) s)

/-- LDY absolute (R122). -/
def execLdyAbs (w : Word) (s : State) : Out := .next (readWith loadY (.abs w) s)

/-- LDY absolute,X (R122). -/
def execLdyAbsx (w : Word) (s : State) : Out := .next (readWith loadY (.absx w) s)

/-- STA zero page (R123). -/
def execStaZp (d : Byte) (s : State) : Out := .next (storeTo s.a (.zp d) s)

/-- STA zero page,X (R123). -/
def execStaZpx (d : Byte) (s : State) : Out := .next (storeTo s.a (.zpx d) s)

/-- STA absolute (R123). -/
def execStaAbs (w : Word) (s : State) : Out := .next (storeTo s.a (.abs w) s)

/-- STA absolute,X (R123). -/
def execStaAbsx (w : Word) (s : State) : Out := .next (storeTo s.a (.absx w) s)

/-- STA absolute,Y (R123). -/
def execStaAbsy (w : Word) (s : State) : Out := .next (storeTo s.a (.absy w) s)

/-- STA (d,X) (R123). -/
def execStaIndx (d : Byte) (s : State) : Out := .next (storeTo s.a (.indx d) s)

/-- STA (d),Y (R123). -/
def execStaIndy (d : Byte) (s : State) : Out := .next (storeTo s.a (.indy d) s)

/-- STX zero page (R124). -/
def execStxZp (d : Byte) (s : State) : Out := .next (storeTo s.x (.zp d) s)

/-- STX zero page,Y (R124). -/
def execStxZpy (d : Byte) (s : State) : Out := .next (storeTo s.x (.zpy d) s)

/-- STX absolute (R124). -/
def execStxAbs (w : Word) (s : State) : Out := .next (storeTo s.x (.abs w) s)

/-- STY zero page (R125). -/
def execStyZp (d : Byte) (s : State) : Out := .next (storeTo s.y (.zp d) s)

/-- STY zero page,X (R125). -/
def execStyZpx (d : Byte) (s : State) : Out := .next (storeTo s.y (.zpx d) s)

/-- STY absolute (R125). -/
def execStyAbs (w : Word) (s : State) : Out := .next (storeTo s.y (.abs w) s)

end Sys2Proof.Machine
end

