-- ==== Sys2Proof/Machine/TransferStackFlag.lean ====
section
/-! DEFINITION. The meanings of register transfers, stack and flag instructions (44_transfer_stack_flag.md).
Each is applied to the state after the instruction's own bytes have been fetched (log entry 11), so PC is the address of
the next instruction. -/

namespace Sys2Proof.Machine

/-- TAX (R170). -/
def execTax (s : State) : Out := .next (setNZ s.a ((dead s).setX s.a))

/-- TAY (R171). -/
def execTay (s : State) : Out := .next (setNZ s.a ((dead s).setY s.a))

/-- TXA (R172). -/
def execTxa (s : State) : Out := .next (setNZ s.x ((dead s).setA s.x))

/-- TYA (R173). -/
def execTya (s : State) : Out := .next (setNZ s.y ((dead s).setA s.y))

/-- TSX (R174). -/
def execTsx (s : State) : Out := .next (setNZ s.sp ((dead s).setX s.sp))

/-- TXS (R175): no flag changes. -/
def execTxs (s : State) : Out := .next ((dead s).setSp s.x)

/-- PHA (R176): A is pushed; N and Z from A under `phaSetsNZ`. -/
def execPha (s : State) : Out :=
  .next (if Config.phaSetsNZ then setNZ s.a (push s.a (dead s)) else push s.a (dead s))

/-- PHP (R177): P is pushed with all 8 bits as stored. -/
def execPhp (s : State) : Out := .next (push s.p (dead s))

/-- PLA (R178). -/
def execPla (s : State) : Out :=
  let r := pull (dead (dead s))
  .next (setNZ r.1 (r.2.setA r.1))

/-- PLP (R179): all 8 bits of P are pulled. -/
def execPlp (s : State) : Out :=
  let r := pull (dead (dead s))
  .next (r.2.setP r.1)

/-- CLC (R180). -/
def execClc (s : State) : Out := .next ((dead s).setFlag .c false)

/-- SEC (R181). -/
def execSec (s : State) : Out := .next ((dead s).setFlag .c true)

/-- CLI (R182). -/
def execCli (s : State) : Out := .next ((dead s).setFlag .i false)

/-- SEI (R183). -/
def execSei (s : State) : Out := .next ((dead s).setFlag .i true)

/-- CLV (R184). -/
def execClv (s : State) : Out := .next ((dead s).setFlag .v false)

/-- CLD (R185). -/
def execCld (s : State) : Out := .next ((dead s).setFlag .d false)

/-- SED (R186). -/
def execSed (s : State) : Out := .next ((dead s).setFlag .d true)

end Sys2Proof.Machine
end

