-- ==== Sys2Proof/WellFormed.lean ====
section
/-! DEFINITION. Which terms of Instr are instructions. Every operand of a documented instruction is a whole byte or a
whole word (30_encoding.md R60), so its type is the whole check; `undefined` is an instruction only for the bytes R65
lists. -/

namespace Sys2Proof

/-- R65, the bytes 00 to 0F. -/
def undefinedRow0 : List Byte := [0x02#8, 0x03#8, 0x04#8, 0x07#8, 0x0B#8, 0x0C#8, 0x0F#8]

/-- R65, the bytes 10 to 1F. -/
def undefinedRow1 : List Byte := [0x12#8, 0x13#8, 0x14#8, 0x17#8, 0x1A#8, 0x1B#8, 0x1C#8, 0x1F#8]

/-- R65, the bytes 20 to 2F. -/
def undefinedRow2 : List Byte := [0x22#8, 0x23#8, 0x27#8, 0x2B#8, 0x2F#8]

/-- R65, the bytes 30 to 3F. -/
def undefinedRow3 : List Byte := [0x32#8, 0x33#8, 0x34#8, 0x37#8, 0x3A#8, 0x3B#8, 0x3C#8, 0x3F#8]

/-- R65, the bytes 40 to 4F. -/
def undefinedRow4 : List Byte := [0x42#8, 0x43#8, 0x44#8, 0x47#8, 0x4B#8, 0x4F#8]

/-- R65, the bytes 50 to 5F. -/
def undefinedRow5 : List Byte := [0x52#8, 0x53#8, 0x54#8, 0x57#8, 0x5A#8, 0x5B#8, 0x5C#8, 0x5F#8]

/-- R65, the bytes 60 to 6F. -/
def undefinedRow6 : List Byte := [0x62#8, 0x63#8, 0x64#8, 0x67#8, 0x6B#8, 0x6F#8]

/-- R65, the bytes 70 to 7F. -/
def undefinedRow7 : List Byte := [0x72#8, 0x73#8, 0x74#8, 0x77#8, 0x7A#8, 0x7B#8, 0x7C#8, 0x7F#8]

/-- R65, the bytes 80 to 8F. -/
def undefinedRow8 : List Byte := [0x80#8, 0x82#8, 0x83#8, 0x87#8, 0x89#8, 0x8B#8, 0x8F#8]

/-- R65, the bytes 90 to 9F. -/
def undefinedRow9 : List Byte := [0x92#8, 0x93#8, 0x97#8, 0x9B#8, 0x9C#8, 0x9E#8, 0x9F#8]

/-- R65, the bytes A0 to AF. -/
def undefinedRowA : List Byte := [0xA3#8, 0xA7#8, 0xAB#8, 0xAF#8]

/-- R65, the bytes B0 to BF. -/
def undefinedRowB : List Byte := [0xB2#8, 0xB3#8, 0xB7#8, 0xBB#8, 0xBF#8]

/-- R65, the bytes C0 to CF. -/
def undefinedRowC : List Byte := [0xC2#8, 0xC3#8, 0xC7#8, 0xCB#8, 0xCF#8]

/-- R65, the bytes D0 to DF. -/
def undefinedRowD : List Byte := [0xD2#8, 0xD3#8, 0xD4#8, 0xD7#8, 0xDA#8, 0xDB#8, 0xDC#8, 0xDF#8]

/-- R65, the bytes E0 to EF. -/
def undefinedRowE : List Byte := [0xE2#8, 0xE3#8, 0xE7#8, 0xEB#8, 0xEF#8]

/-- R65, the bytes F0 to FF. -/
def undefinedRowF : List Byte := [0xF2#8, 0xF3#8, 0xF4#8, 0xF7#8, 0xFA#8, 0xFB#8, 0xFC#8, 0xFF#8]

/-- The 105 undefined opcode bytes, as R65 lists them. -/
def undefinedOpcodes : List Byte :=
  undefinedRow0 ++ undefinedRow1 ++ undefinedRow2 ++ undefinedRow3 ++
  undefinedRow4 ++ undefinedRow5 ++ undefinedRow6 ++ undefinedRow7 ++
  undefinedRow8 ++ undefinedRow9 ++ undefinedRowA ++ undefinedRowB ++
  undefinedRowC ++ undefinedRowD ++ undefinedRowE ++ undefinedRowF

/-- A term of Instr that stands for an instruction of the opcode table. -/
def Instr.wf : Instr → Bool
  | .ldaImm _ | .ldaZp _ | .ldaZpx _ | .ldaAbs _ | .ldaAbsx _ | .ldaAbsy _ | .ldaIndx _ | .ldaIndy _ => true
  | .ldxImm _ | .ldxZp _ | .ldxZpy _ | .ldxAbs _ | .ldxAbsy _ => true
  | .ldyImm _ | .ldyZp _ | .ldyZpx _ | .ldyAbs _ | .ldyAbsx _ => true
  | .staZp _ | .staZpx _ | .staAbs _ | .staAbsx _ | .staAbsy _ | .staIndx _ | .staIndy _ => true
  | .stxZp _ | .stxZpy _ | .stxAbs _ => true
  | .styZp _ | .styZpx _ | .styAbs _ => true
  | .oraImm _ | .oraZp _ | .oraZpx _ | .oraAbs _ | .oraAbsx _ | .oraAbsy _ | .oraIndx _ | .oraIndy _ => true
  | .andImm _ | .andZp _ | .andZpx _ | .andAbs _ | .andAbsx _ | .andAbsy _ | .andIndx _ | .andIndy _ => true
  | .eorImm _ | .eorZp _ | .eorZpx _ | .eorAbs _ | .eorAbsx _ | .eorAbsy _ | .eorIndx _ | .eorIndy _ => true
  | .adcImm _ | .adcZp _ | .adcZpx _ | .adcAbs _ | .adcAbsx _ | .adcAbsy _ | .adcIndx _ | .adcIndy _ => true
  | .sbcImm _ | .sbcZp _ | .sbcZpx _ | .sbcAbs _ | .sbcAbsx _ | .sbcAbsy _ | .sbcIndx _ | .sbcIndy _ => true
  | .cmpImm _ | .cmpZp _ | .cmpZpx _ | .cmpAbs _ | .cmpAbsx _ | .cmpAbsy _ | .cmpIndx _ | .cmpIndy _ => true
  | .cpxImm _ | .cpxZp _ | .cpxAbs _ => true
  | .cpyImm _ | .cpyZp _ | .cpyAbs _ => true
  | .incZp _ | .incZpx _ | .incAbs _ | .incAbsx _ => true
  | .decZp _ | .decZpx _ | .decAbs _ | .decAbsx _ => true
  | .inx => true
  | .iny => true
  | .dex => true
  | .dey => true
  | .aslAcc | .aslZp _ | .aslZpx _ | .aslAbs _ | .aslAbsx _ => true
  | .lsrAcc | .lsrZp _ | .lsrZpx _ | .lsrAbs _ | .lsrAbsx _ => true
  | .rolAcc | .rolZp _ | .rolZpx _ | .rolAbs _ | .rolAbsx _ => true
  | .rorAcc | .rorZp _ | .rorZpx _ | .rorAbs _ | .rorAbsx _ => true
  | .bitZp _ | .bitAbs _ => true
  | .tax => true
  | .tay => true
  | .txa => true
  | .tya => true
  | .tsx => true
  | .txs => true
  | .pha => true
  | .php => true
  | .pla => true
  | .plp => true
  | .clc => true
  | .sec => true
  | .cli => true
  | .sei => true
  | .clv => true
  | .cld => true
  | .sed => true
  | .bpl _ => true
  | .bmi _ => true
  | .bvc _ => true
  | .bvs _ => true
  | .bcc _ => true
  | .bcs _ => true
  | .bne _ => true
  | .beq _ => true
  | .jmpAbs _ | .jmpInd _ => true
  | .jsr _ => true
  | .rts => true
  | .brk => true
  | .rti => true
  | .nop => true
  | .undefined op => undefinedOpcodes.contains op

end Sys2Proof
end

