-- ==== Sys2Proof/Decode.lean ====
section
/-! DEFINITION. Decoding and encoding (30_encoding.md R60 to R69). The opcode map is R63's table, one function a row of
the table and one arm a defined cell. Decoding depends on the bytes only (R66, R69); it is total on any list of bytes
and refuses, by name, only a list that ends before the instruction does. -/

namespace Sys2Proof

/-- R63, row 0: `d` is the byte after the opcode, `w` the word after it. -/
def decodeRow0 (lo : Nat) (op d : Byte) (w : Word) : Instr :=
  match lo with
  | 0x0 => .brk
  | 0x1 => .oraIndx d
  | 0x5 => .oraZp d
  | 0x6 => .aslZp d
  | 0x8 => .php
  | 0x9 => .oraImm d
  | 0xA => .aslAcc
  | 0xD => .oraAbs w
  | 0xE => .aslAbs w
  | _ => .undefined op

/-- R63, row 1: `d` is the byte after the opcode, `w` the word after it. -/
def decodeRow1 (lo : Nat) (op d : Byte) (w : Word) : Instr :=
  match lo with
  | 0x0 => .bpl d
  | 0x1 => .oraIndy d
  | 0x5 => .oraZpx d
  | 0x6 => .aslZpx d
  | 0x8 => .clc
  | 0x9 => .oraAbsy w
  | 0xD => .oraAbsx w
  | 0xE => .aslAbsx w
  | _ => .undefined op

/-- R63, row 2: `d` is the byte after the opcode, `w` the word after it. -/
def decodeRow2 (lo : Nat) (op d : Byte) (w : Word) : Instr :=
  match lo with
  | 0x0 => .jsr w
  | 0x1 => .andIndx d
  | 0x4 => .bitZp d
  | 0x5 => .andZp d
  | 0x6 => .rolZp d
  | 0x8 => .plp
  | 0x9 => .andImm d
  | 0xA => .rolAcc
  | 0xC => .bitAbs w
  | 0xD => .andAbs w
  | 0xE => .rolAbs w
  | _ => .undefined op

/-- R63, row 3: `d` is the byte after the opcode, `w` the word after it. -/
def decodeRow3 (lo : Nat) (op d : Byte) (w : Word) : Instr :=
  match lo with
  | 0x0 => .bmi d
  | 0x1 => .andIndy d
  | 0x5 => .andZpx d
  | 0x6 => .rolZpx d
  | 0x8 => .sec
  | 0x9 => .andAbsy w
  | 0xD => .andAbsx w
  | 0xE => .rolAbsx w
  | _ => .undefined op

/-- R63, row 4: `d` is the byte after the opcode, `w` the word after it. -/
def decodeRow4 (lo : Nat) (op d : Byte) (w : Word) : Instr :=
  match lo with
  | 0x0 => .rti
  | 0x1 => .eorIndx d
  | 0x5 => .eorZp d
  | 0x6 => .lsrZp d
  | 0x8 => .pha
  | 0x9 => .eorImm d
  | 0xA => .lsrAcc
  | 0xC => .jmpAbs w
  | 0xD => .eorAbs w
  | 0xE => .lsrAbs w
  | _ => .undefined op

/-- R63, row 5: `d` is the byte after the opcode, `w` the word after it. -/
def decodeRow5 (lo : Nat) (op d : Byte) (w : Word) : Instr :=
  match lo with
  | 0x0 => .bvc d
  | 0x1 => .eorIndy d
  | 0x5 => .eorZpx d
  | 0x6 => .lsrZpx d
  | 0x8 => .cli
  | 0x9 => .eorAbsy w
  | 0xD => .eorAbsx w
  | 0xE => .lsrAbsx w
  | _ => .undefined op

/-- R63, row 6: `d` is the byte after the opcode, `w` the word after it. -/
def decodeRow6 (lo : Nat) (op d : Byte) (w : Word) : Instr :=
  match lo with
  | 0x0 => .rts
  | 0x1 => .adcIndx d
  | 0x5 => .adcZp d
  | 0x6 => .rorZp d
  | 0x8 => .pla
  | 0x9 => .adcImm d
  | 0xA => .rorAcc
  | 0xC => .jmpInd w
  | 0xD => .adcAbs w
  | 0xE => .rorAbs w
  | _ => .undefined op

/-- R63, row 7: `d` is the byte after the opcode, `w` the word after it. -/
def decodeRow7 (lo : Nat) (op d : Byte) (w : Word) : Instr :=
  match lo with
  | 0x0 => .bvs d
  | 0x1 => .adcIndy d
  | 0x5 => .adcZpx d
  | 0x6 => .rorZpx d
  | 0x8 => .sei
  | 0x9 => .adcAbsy w
  | 0xD => .adcAbsx w
  | 0xE => .rorAbsx w
  | _ => .undefined op

/-- R63, row 8: `d` is the byte after the opcode, `w` the word after it. -/
def decodeRow8 (lo : Nat) (op d : Byte) (w : Word) : Instr :=
  match lo with
  | 0x1 => .staIndx d
  | 0x4 => .styZp d
  | 0x5 => .staZp d
  | 0x6 => .stxZp d
  | 0x8 => .dey
  | 0xA => .txa
  | 0xC => .styAbs w
  | 0xD => .staAbs w
  | 0xE => .stxAbs w
  | _ => .undefined op

/-- R63, row 9: `d` is the byte after the opcode, `w` the word after it. -/
def decodeRow9 (lo : Nat) (op d : Byte) (w : Word) : Instr :=
  match lo with
  | 0x0 => .bcc d
  | 0x1 => .staIndy d
  | 0x4 => .styZpx d
  | 0x5 => .staZpx d
  | 0x6 => .stxZpy d
  | 0x8 => .tya
  | 0x9 => .staAbsy w
  | 0xA => .txs
  | 0xD => .staAbsx w
  | _ => .undefined op

/-- R63, row A: `d` is the byte after the opcode, `w` the word after it. -/
def decodeRowA (lo : Nat) (op d : Byte) (w : Word) : Instr :=
  match lo with
  | 0x0 => .ldyImm d
  | 0x1 => .ldaIndx d
  | 0x2 => .ldxImm d
  | 0x4 => .ldyZp d
  | 0x5 => .ldaZp d
  | 0x6 => .ldxZp d
  | 0x8 => .tay
  | 0x9 => .ldaImm d
  | 0xA => .tax
  | 0xC => .ldyAbs w
  | 0xD => .ldaAbs w
  | 0xE => .ldxAbs w
  | _ => .undefined op

/-- R63, row B: `d` is the byte after the opcode, `w` the word after it. -/
def decodeRowB (lo : Nat) (op d : Byte) (w : Word) : Instr :=
  match lo with
  | 0x0 => .bcs d
  | 0x1 => .ldaIndy d
  | 0x4 => .ldyZpx d
  | 0x5 => .ldaZpx d
  | 0x6 => .ldxZpy d
  | 0x8 => .clv
  | 0x9 => .ldaAbsy w
  | 0xA => .tsx
  | 0xC => .ldyAbsx w
  | 0xD => .ldaAbsx w
  | 0xE => .ldxAbsy w
  | _ => .undefined op

/-- R63, row C: `d` is the byte after the opcode, `w` the word after it. -/
def decodeRowC (lo : Nat) (op d : Byte) (w : Word) : Instr :=
  match lo with
  | 0x0 => .cpyImm d
  | 0x1 => .cmpIndx d
  | 0x4 => .cpyZp d
  | 0x5 => .cmpZp d
  | 0x6 => .decZp d
  | 0x8 => .iny
  | 0x9 => .cmpImm d
  | 0xA => .dex
  | 0xC => .cpyAbs w
  | 0xD => .cmpAbs w
  | 0xE => .decAbs w
  | _ => .undefined op

/-- R63, row D: `d` is the byte after the opcode, `w` the word after it. -/
def decodeRowD (lo : Nat) (op d : Byte) (w : Word) : Instr :=
  match lo with
  | 0x0 => .bne d
  | 0x1 => .cmpIndy d
  | 0x5 => .cmpZpx d
  | 0x6 => .decZpx d
  | 0x8 => .cld
  | 0x9 => .cmpAbsy w
  | 0xD => .cmpAbsx w
  | 0xE => .decAbsx w
  | _ => .undefined op

/-- R63, row E: `d` is the byte after the opcode, `w` the word after it. -/
def decodeRowE (lo : Nat) (op d : Byte) (w : Word) : Instr :=
  match lo with
  | 0x0 => .cpxImm d
  | 0x1 => .sbcIndx d
  | 0x4 => .cpxZp d
  | 0x5 => .sbcZp d
  | 0x6 => .incZp d
  | 0x8 => .inx
  | 0x9 => .sbcImm d
  | 0xA => .nop
  | 0xC => .cpxAbs w
  | 0xD => .sbcAbs w
  | 0xE => .incAbs w
  | _ => .undefined op

/-- R63, row F: `d` is the byte after the opcode, `w` the word after it. -/
def decodeRowF (lo : Nat) (op d : Byte) (w : Word) : Instr :=
  match lo with
  | 0x0 => .beq d
  | 0x1 => .sbcIndy d
  | 0x5 => .sbcZpx d
  | 0x6 => .incZpx d
  | 0x8 => .sed
  | 0x9 => .sbcAbsy w
  | 0xD => .sbcAbsx w
  | 0xE => .incAbsx w
  | _ => .undefined op

/-- The opcode map (R63, R65): opcode byte, the byte after it, the word after it. -/
def decodeOpcode (op d : Byte) (w : Word) : Instr :=
  match op.toNat / 16 with
  | 0x0 => decodeRow0 (op.toNat % 16) op d w
  | 0x1 => decodeRow1 (op.toNat % 16) op d w
  | 0x2 => decodeRow2 (op.toNat % 16) op d w
  | 0x3 => decodeRow3 (op.toNat % 16) op d w
  | 0x4 => decodeRow4 (op.toNat % 16) op d w
  | 0x5 => decodeRow5 (op.toNat % 16) op d w
  | 0x6 => decodeRow6 (op.toNat % 16) op d w
  | 0x7 => decodeRow7 (op.toNat % 16) op d w
  | 0x8 => decodeRow8 (op.toNat % 16) op d w
  | 0x9 => decodeRow9 (op.toNat % 16) op d w
  | 0xA => decodeRowA (op.toNat % 16) op d w
  | 0xB => decodeRowB (op.toNat % 16) op d w
  | 0xC => decodeRowC (op.toNat % 16) op d w
  | 0xD => decodeRowD (op.toNat % 16) op d w
  | 0xE => decodeRowE (op.toNat % 16) op d w
  | _ => decodeRowF (op.toNat % 16) op d w

/-- The operation R63 classifies the instruction into. -/
def Instr.operation : Instr → Operation
  | .ldaImm _ | .ldaZp _ | .ldaZpx _ | .ldaAbs _ | .ldaAbsx _ | .ldaAbsy _ | .ldaIndx _ | .ldaIndy _ => .lda
  | .ldxImm _ | .ldxZp _ | .ldxZpy _ | .ldxAbs _ | .ldxAbsy _ => .ldx
  | .ldyImm _ | .ldyZp _ | .ldyZpx _ | .ldyAbs _ | .ldyAbsx _ => .ldy
  | .staZp _ | .staZpx _ | .staAbs _ | .staAbsx _ | .staAbsy _ | .staIndx _ | .staIndy _ => .sta
  | .stxZp _ | .stxZpy _ | .stxAbs _ => .stx
  | .styZp _ | .styZpx _ | .styAbs _ => .sty
  | .oraImm _ | .oraZp _ | .oraZpx _ | .oraAbs _ | .oraAbsx _ | .oraAbsy _ | .oraIndx _ | .oraIndy _ => .ora
  | .andImm _ | .andZp _ | .andZpx _ | .andAbs _ | .andAbsx _ | .andAbsy _ | .andIndx _ | .andIndy _ => .and
  | .eorImm _ | .eorZp _ | .eorZpx _ | .eorAbs _ | .eorAbsx _ | .eorAbsy _ | .eorIndx _ | .eorIndy _ => .eor
  | .adcImm _ | .adcZp _ | .adcZpx _ | .adcAbs _ | .adcAbsx _ | .adcAbsy _ | .adcIndx _ | .adcIndy _ => .adc
  | .sbcImm _ | .sbcZp _ | .sbcZpx _ | .sbcAbs _ | .sbcAbsx _ | .sbcAbsy _ | .sbcIndx _ | .sbcIndy _ => .sbc
  | .cmpImm _ | .cmpZp _ | .cmpZpx _ | .cmpAbs _ | .cmpAbsx _ | .cmpAbsy _ | .cmpIndx _ | .cmpIndy _ => .cmp
  | .cpxImm _ | .cpxZp _ | .cpxAbs _ => .cpx
  | .cpyImm _ | .cpyZp _ | .cpyAbs _ => .cpy
  | .incZp _ | .incZpx _ | .incAbs _ | .incAbsx _ => .inc
  | .decZp _ | .decZpx _ | .decAbs _ | .decAbsx _ => .dec
  | .inx => .inx
  | .iny => .iny
  | .dex => .dex
  | .dey => .dey
  | .aslAcc | .aslZp _ | .aslZpx _ | .aslAbs _ | .aslAbsx _ => .asl
  | .lsrAcc | .lsrZp _ | .lsrZpx _ | .lsrAbs _ | .lsrAbsx _ => .lsr
  | .rolAcc | .rolZp _ | .rolZpx _ | .rolAbs _ | .rolAbsx _ => .rol
  | .rorAcc | .rorZp _ | .rorZpx _ | .rorAbs _ | .rorAbsx _ => .ror
  | .bitZp _ | .bitAbs _ => .bit
  | .tax => .tax
  | .tay => .tay
  | .txa => .txa
  | .tya => .tya
  | .tsx => .tsx
  | .txs => .txs
  | .pha => .pha
  | .php => .php
  | .pla => .pla
  | .plp => .plp
  | .clc => .clc
  | .sec => .sec
  | .cli => .cli
  | .sei => .sei
  | .clv => .clv
  | .cld => .cld
  | .sed => .sed
  | .bpl _ => .bpl
  | .bmi _ => .bmi
  | .bvc _ => .bvc
  | .bvs _ => .bvs
  | .bcc _ => .bcc
  | .bcs _ => .bcs
  | .bne _ => .bne
  | .beq _ => .beq
  | .jmpAbs _ | .jmpInd _ => .jmp
  | .jsr _ => .jsr
  | .rts => .rts
  | .brk => .brk
  | .rti => .rti
  | .nop => .nop
  | .undefined _ => .undefined

/-- The class of an operation (40_sequencer_addressing.md R84); an undefined opcode has none. -/
def Operation.opClass : Operation → Option OpClass
  | .lda | .ldx | .ldy | .ora | .and | .eor | .adc | .sbc | .cmp | .cpx | .cpy | .bit => some .r
  | .sta | .stx | .sty => some .w
  | .asl | .lsr | .rol | .ror | .inc | .dec => some .m
  | .bpl | .bmi | .bvc | .bvs | .bcc | .bcs | .bne | .beq => some .b
  | .jmp => some .j
  | .tax | .tay | .txa | .tya | .tsx | .txs | .inx | .iny | .dex | .dey => some .i
  | .clc | .sec | .cli | .sei | .clv | .cld | .sed | .nop => some .i
  | .pha | .php | .pla | .plp | .jsr | .rts | .brk | .rti => some .k
  | .undefined => none

/-- The operand, in the addressing mode R63 classifies the instruction into. -/
def Instr.operand : Instr → Operand
  | .ldaImm d => .imm d
  | .ldaZp d => .mem (.zp d)
  | .ldaZpx d => .mem (.zpx d)
  | .ldaAbs w => .mem (.abs w)
  | .ldaAbsx w => .mem (.absx w)
  | .ldaAbsy w => .mem (.absy w)
  | .ldaIndx d => .mem (.indx d)
  | .ldaIndy d => .mem (.indy d)
  | .ldxImm d => .imm d
  | .ldxZp d => .mem (.zp d)
  | .ldxZpy d => .mem (.zpy d)
  | .ldxAbs w => .mem (.abs w)
  | .ldxAbsy w => .mem (.absy w)
  | .ldyImm d => .imm d
  | .ldyZp d => .mem (.zp d)
  | .ldyZpx d => .mem (.zpx d)
  | .ldyAbs w => .mem (.abs w)
  | .ldyAbsx w => .mem (.absx w)
  | .staZp d => .mem (.zp d)
  | .staZpx d => .mem (.zpx d)
  | .staAbs w => .mem (.abs w)
  | .staAbsx w => .mem (.absx w)
  | .staAbsy w => .mem (.absy w)
  | .staIndx d => .mem (.indx d)
  | .staIndy d => .mem (.indy d)
  | .stxZp d => .mem (.zp d)
  | .stxZpy d => .mem (.zpy d)
  | .stxAbs w => .mem (.abs w)
  | .styZp d => .mem (.zp d)
  | .styZpx d => .mem (.zpx d)
  | .styAbs w => .mem (.abs w)
  | .oraImm d => .imm d
  | .oraZp d => .mem (.zp d)
  | .oraZpx d => .mem (.zpx d)
  | .oraAbs w => .mem (.abs w)
  | .oraAbsx w => .mem (.absx w)
  | .oraAbsy w => .mem (.absy w)
  | .oraIndx d => .mem (.indx d)
  | .oraIndy d => .mem (.indy d)
  | .andImm d => .imm d
  | .andZp d => .mem (.zp d)
  | .andZpx d => .mem (.zpx d)
  | .andAbs w => .mem (.abs w)
  | .andAbsx w => .mem (.absx w)
  | .andAbsy w => .mem (.absy w)
  | .andIndx d => .mem (.indx d)
  | .andIndy d => .mem (.indy d)
  | .eorImm d => .imm d
  | .eorZp d => .mem (.zp d)
  | .eorZpx d => .mem (.zpx d)
  | .eorAbs w => .mem (.abs w)
  | .eorAbsx w => .mem (.absx w)
  | .eorAbsy w => .mem (.absy w)
  | .eorIndx d => .mem (.indx d)
  | .eorIndy d => .mem (.indy d)
  | .adcImm d => .imm d
  | .adcZp d => .mem (.zp d)
  | .adcZpx d => .mem (.zpx d)
  | .adcAbs w => .mem (.abs w)
  | .adcAbsx w => .mem (.absx w)
  | .adcAbsy w => .mem (.absy w)
  | .adcIndx d => .mem (.indx d)
  | .adcIndy d => .mem (.indy d)
  | .sbcImm d => .imm d
  | .sbcZp d => .mem (.zp d)
  | .sbcZpx d => .mem (.zpx d)
  | .sbcAbs w => .mem (.abs w)
  | .sbcAbsx w => .mem (.absx w)
  | .sbcAbsy w => .mem (.absy w)
  | .sbcIndx d => .mem (.indx d)
  | .sbcIndy d => .mem (.indy d)
  | .cmpImm d => .imm d
  | .cmpZp d => .mem (.zp d)
  | .cmpZpx d => .mem (.zpx d)
  | .cmpAbs w => .mem (.abs w)
  | .cmpAbsx w => .mem (.absx w)
  | .cmpAbsy w => .mem (.absy w)
  | .cmpIndx d => .mem (.indx d)
  | .cmpIndy d => .mem (.indy d)
  | .cpxImm d => .imm d
  | .cpxZp d => .mem (.zp d)
  | .cpxAbs w => .mem (.abs w)
  | .cpyImm d => .imm d
  | .cpyZp d => .mem (.zp d)
  | .cpyAbs w => .mem (.abs w)
  | .incZp d => .mem (.zp d)
  | .incZpx d => .mem (.zpx d)
  | .incAbs w => .mem (.abs w)
  | .incAbsx w => .mem (.absx w)
  | .decZp d => .mem (.zp d)
  | .decZpx d => .mem (.zpx d)
  | .decAbs w => .mem (.abs w)
  | .decAbsx w => .mem (.absx w)
  | .inx => .imp
  | .iny => .imp
  | .dex => .imp
  | .dey => .imp
  | .aslAcc => .acc
  | .aslZp d => .mem (.zp d)
  | .aslZpx d => .mem (.zpx d)
  | .aslAbs w => .mem (.abs w)
  | .aslAbsx w => .mem (.absx w)
  | .lsrAcc => .acc
  | .lsrZp d => .mem (.zp d)
  | .lsrZpx d => .mem (.zpx d)
  | .lsrAbs w => .mem (.abs w)
  | .lsrAbsx w => .mem (.absx w)
  | .rolAcc => .acc
  | .rolZp d => .mem (.zp d)
  | .rolZpx d => .mem (.zpx d)
  | .rolAbs w => .mem (.abs w)
  | .rolAbsx w => .mem (.absx w)
  | .rorAcc => .acc
  | .rorZp d => .mem (.zp d)
  | .rorZpx d => .mem (.zpx d)
  | .rorAbs w => .mem (.abs w)
  | .rorAbsx w => .mem (.absx w)
  | .bitZp d => .mem (.zp d)
  | .bitAbs w => .mem (.abs w)
  | .tax => .imp
  | .tay => .imp
  | .txa => .imp
  | .tya => .imp
  | .tsx => .imp
  | .txs => .imp
  | .pha => .imp
  | .php => .imp
  | .pla => .imp
  | .plp => .imp
  | .clc => .imp
  | .sec => .imp
  | .cli => .imp
  | .sei => .imp
  | .clv => .imp
  | .cld => .imp
  | .sed => .imp
  | .bpl d => .rel d
  | .bmi d => .rel d
  | .bvc d => .rel d
  | .bvs d => .rel d
  | .bcc d => .rel d
  | .bcs d => .rel d
  | .bne d => .rel d
  | .beq d => .rel d
  | .jmpAbs w => .mem (.abs w)
  | .jmpInd w => .ind w
  | .jsr w => .mem (.abs w)
  | .rts => .imp
  | .brk => .imp
  | .rti => .imp
  | .nop => .imp
  | .undefined _ => .imp

/-- The opcode byte of each form (R63, "Forms per mnemonic"). -/
def Instr.opcode : Instr → Byte
  | .ldaImm _ => 0xA9#8
  | .ldaZp _ => 0xA5#8
  | .ldaZpx _ => 0xB5#8
  | .ldaAbs _ => 0xAD#8
  | .ldaAbsx _ => 0xBD#8
  | .ldaAbsy _ => 0xB9#8
  | .ldaIndx _ => 0xA1#8
  | .ldaIndy _ => 0xB1#8
  | .ldxImm _ => 0xA2#8
  | .ldxZp _ => 0xA6#8
  | .ldxZpy _ => 0xB6#8
  | .ldxAbs _ => 0xAE#8
  | .ldxAbsy _ => 0xBE#8
  | .ldyImm _ => 0xA0#8
  | .ldyZp _ => 0xA4#8
  | .ldyZpx _ => 0xB4#8
  | .ldyAbs _ => 0xAC#8
  | .ldyAbsx _ => 0xBC#8
  | .staZp _ => 0x85#8
  | .staZpx _ => 0x95#8
  | .staAbs _ => 0x8D#8
  | .staAbsx _ => 0x9D#8
  | .staAbsy _ => 0x99#8
  | .staIndx _ => 0x81#8
  | .staIndy _ => 0x91#8
  | .stxZp _ => 0x86#8
  | .stxZpy _ => 0x96#8
  | .stxAbs _ => 0x8E#8
  | .styZp _ => 0x84#8
  | .styZpx _ => 0x94#8
  | .styAbs _ => 0x8C#8
  | .oraImm _ => 0x09#8
  | .oraZp _ => 0x05#8
  | .oraZpx _ => 0x15#8
  | .oraAbs _ => 0x0D#8
  | .oraAbsx _ => 0x1D#8
  | .oraAbsy _ => 0x19#8
  | .oraIndx _ => 0x01#8
  | .oraIndy _ => 0x11#8
  | .andImm _ => 0x29#8
  | .andZp _ => 0x25#8
  | .andZpx _ => 0x35#8
  | .andAbs _ => 0x2D#8
  | .andAbsx _ => 0x3D#8
  | .andAbsy _ => 0x39#8
  | .andIndx _ => 0x21#8
  | .andIndy _ => 0x31#8
  | .eorImm _ => 0x49#8
  | .eorZp _ => 0x45#8
  | .eorZpx _ => 0x55#8
  | .eorAbs _ => 0x4D#8
  | .eorAbsx _ => 0x5D#8
  | .eorAbsy _ => 0x59#8
  | .eorIndx _ => 0x41#8
  | .eorIndy _ => 0x51#8
  | .adcImm _ => 0x69#8
  | .adcZp _ => 0x65#8
  | .adcZpx _ => 0x75#8
  | .adcAbs _ => 0x6D#8
  | .adcAbsx _ => 0x7D#8
  | .adcAbsy _ => 0x79#8
  | .adcIndx _ => 0x61#8
  | .adcIndy _ => 0x71#8
  | .sbcImm _ => 0xE9#8
  | .sbcZp _ => 0xE5#8
  | .sbcZpx _ => 0xF5#8
  | .sbcAbs _ => 0xED#8
  | .sbcAbsx _ => 0xFD#8
  | .sbcAbsy _ => 0xF9#8
  | .sbcIndx _ => 0xE1#8
  | .sbcIndy _ => 0xF1#8
  | .cmpImm _ => 0xC9#8
  | .cmpZp _ => 0xC5#8
  | .cmpZpx _ => 0xD5#8
  | .cmpAbs _ => 0xCD#8
  | .cmpAbsx _ => 0xDD#8
  | .cmpAbsy _ => 0xD9#8
  | .cmpIndx _ => 0xC1#8
  | .cmpIndy _ => 0xD1#8
  | .cpxImm _ => 0xE0#8
  | .cpxZp _ => 0xE4#8
  | .cpxAbs _ => 0xEC#8
  | .cpyImm _ => 0xC0#8
  | .cpyZp _ => 0xC4#8
  | .cpyAbs _ => 0xCC#8
  | .incZp _ => 0xE6#8
  | .incZpx _ => 0xF6#8
  | .incAbs _ => 0xEE#8
  | .incAbsx _ => 0xFE#8
  | .decZp _ => 0xC6#8
  | .decZpx _ => 0xD6#8
  | .decAbs _ => 0xCE#8
  | .decAbsx _ => 0xDE#8
  | .inx => 0xE8#8
  | .iny => 0xC8#8
  | .dex => 0xCA#8
  | .dey => 0x88#8
  | .aslAcc => 0x0A#8
  | .aslZp _ => 0x06#8
  | .aslZpx _ => 0x16#8
  | .aslAbs _ => 0x0E#8
  | .aslAbsx _ => 0x1E#8
  | .lsrAcc => 0x4A#8
  | .lsrZp _ => 0x46#8
  | .lsrZpx _ => 0x56#8
  | .lsrAbs _ => 0x4E#8
  | .lsrAbsx _ => 0x5E#8
  | .rolAcc => 0x2A#8
  | .rolZp _ => 0x26#8
  | .rolZpx _ => 0x36#8
  | .rolAbs _ => 0x2E#8
  | .rolAbsx _ => 0x3E#8
  | .rorAcc => 0x6A#8
  | .rorZp _ => 0x66#8
  | .rorZpx _ => 0x76#8
  | .rorAbs _ => 0x6E#8
  | .rorAbsx _ => 0x7E#8
  | .bitZp _ => 0x24#8
  | .bitAbs _ => 0x2C#8
  | .tax => 0xAA#8
  | .tay => 0xA8#8
  | .txa => 0x8A#8
  | .tya => 0x98#8
  | .tsx => 0xBA#8
  | .txs => 0x9A#8
  | .pha => 0x48#8
  | .php => 0x08#8
  | .pla => 0x68#8
  | .plp => 0x28#8
  | .clc => 0x18#8
  | .sec => 0x38#8
  | .cli => 0x58#8
  | .sei => 0x78#8
  | .clv => 0xB8#8
  | .cld => 0xD8#8
  | .sed => 0xF8#8
  | .bpl _ => 0x10#8
  | .bmi _ => 0x30#8
  | .bvc _ => 0x50#8
  | .bvs _ => 0x70#8
  | .bcc _ => 0x90#8
  | .bcs _ => 0xB0#8
  | .bne _ => 0xD0#8
  | .beq _ => 0xF0#8
  | .jmpAbs _ => 0x4C#8
  | .jmpInd _ => 0x6C#8
  | .jsr _ => 0x20#8
  | .rts => 0x60#8
  | .brk => 0x00#8
  | .rti => 0x40#8
  | .nop => 0xEA#8
  | .undefined op => op

/-- The mode of a memory operand. -/
def MemMode.mode : MemMode → Mode
  | .zp _ => .zp
  | .zpx _ => .zpx
  | .zpy _ => .zpy
  | .abs _ => .abs
  | .absx _ => .absx
  | .absy _ => .absy
  | .indx _ => .indx
  | .indy _ => .indy

/-- The mode of an operand. -/
def Operand.mode : Operand → Mode
  | .imp => .imp
  | .acc => .acc
  | .imm _ => .imm
  | .rel _ => .rel
  | .ind _ => .ind
  | .mem m => m.mode

/-- The addressing mode of an instruction. -/
def Instr.mode (i : Instr) : Mode := i.operand.mode

/-- The length of an instruction by its mode (R60: formats F1, F2, F3). -/
def Mode.size : Mode → Nat
  | .imp | .acc => 1
  | .imm | .zp | .zpx | .zpy | .indx | .indy | .rel => 2
  | .abs | .absx | .absy | .ind => 3

/-- The length of an instruction in bytes. -/
def Instr.size (i : Instr) : Nat := i.mode.size

/-- The length the opcode byte alone gives (R69). -/
def opcodeSize (op : Byte) : Nat := (decodeOpcode op 0#8 0#16).size

/-- The bytes after the opcode (R60, R61), a word low byte first (20_memory.md R45). -/
def MemMode.bytes : MemMode → List Byte
  | .zp d | .zpx d | .zpy d | .indx d | .indy d => [d]
  | .abs w | .absx w | .absy w => [lo w, hi w]

/-- The bytes after the opcode of any operand. -/
def Operand.bytes : Operand → List Byte
  | .imp | .acc => []
  | .imm d | .rel d => [d]
  | .ind w => [lo w, hi w]
  | .mem m => m.bytes

/-- Why a list of bytes is not the start of an instruction. -/
inductive DecodeError where
  | noBytes
  | operandMissing (op : Byte)
  deriving DecidableEq, Repr

/-- The instruction a list of bytes begins with, and the bytes after it. -/
def decode : List Byte → Except DecodeError (Instr × List Byte)
  | [] => .error .noBytes
  | op :: rest =>
    match opcodeSize op, rest with
    | 1, rest => .ok (decodeOpcode op 0#8 0#16, rest)
    | 2, d :: rest => .ok (decodeOpcode op d 0#16, rest)
    | 3, ll :: hh :: rest => .ok (decodeOpcode op 0#8 (w16 hh ll), rest)
    | _, _ => .error (.operandMissing op)

/-- The bytes of an instruction. -/
def encode (i : Instr) : List Byte := i.opcode :: i.operand.bytes

/-- The three bytes from which the longest instruction is read, for an instruction whose first `nbits` bits are `w`
and whose other bits are 0: bit 0 is the least significant bit of the first byte. -/
def tableBytes (nbits w : Nat) : List Byte :=
  let v := w % 2 ^ nbits
  [BitVec.ofNat 8 v, BitVec.ofNat 8 (v / 256), BitVec.ofNat 8 (v / 65536)]

/-- What the decoder reads from the instruction whose bits are `w`, numbered as spec/opcode_table.json numbers them. -/
def decodeTableWord (nbits w : Nat) : Option Instr :=
  match decode (tableBytes nbits w) with
  | .ok (i, _) => some i
  | .error _ => none

end Sys2Proof
end

