-- ==== Sys2Proof/Machine/Fetch.lean ====
section
/-! DEFINITION. The fetch of an instruction's own bytes (40_sequencer_addressing.md R83, R87 to R97, R82: they all come
first), as many as the opcode byte says (30_encoding.md R69), and how an instruction is placed where the next step
fetches. -/

namespace Sys2Proof.Machine

/-- The instruction at PC, and the state once its bytes have been fetched: one read a byte, PC after the last. An
undefined opcode has one byte (60_exceptions.md R231). -/
def fetchInstr (s : State) : Instr × State :=
  let op := fetchByte s
  match opcodeSize op.1 with
  | 1 => (decodeOpcode op.1 0#8 0#16, op.2)
  | 2 =>
    let d := fetchByte op.2
    (decodeOpcode op.1 d.1 0#16, d.2)
  | _ =>
    let ll := fetchByte op.2
    let hh := fetchByte ll.2
    (decodeOpcode op.1 0#8 (w16 hh.1 ll.1), hh.2)

/-- Bytes stored at consecutive addresses, wrapping at 0xFFFF (30_encoding.md R60). -/
def Memory.storeBytes (m : Memory) (addr : Word) : List Byte → Memory
  | [] => m
  | v :: vs => Memory.storeBytes (m.write addr.toNat v) (addr + 1#16) vs

end Sys2Proof.Machine
end

