-- ==== Sys2Proof/Machine/Step.lean ====
section
/-! DEFINITION. One `step()` (40_sequencer_addressing.md R80). -/

namespace Sys2Proof.Machine

/-- `step()` (R80): while `faulted` holds, the same fault again with nothing changed (60_exceptions.md R232);
otherwise a new trace begins, the instruction is fetched and it is executed. -/
def step (s : State) : Host.Outcome State Fault Refusal :=
  match s.faulted with
  | some (op, addr) => .fault (.undefinedOpcode op addr s)
  | none =>
    let r := fetchInstr s.clearTrace
    exec r.1 r.2

/-- The state with an instruction (bits numbered as in spec/opcode_table.json) stored where the next step fetches: its
bytes at PC, the longest instruction's three, in a Memory that is present, and no recorded fault (log entry 12). -/
def State.withFetchWord (s : State) (nbits w : Nat) : State :=
  { s with
    mem := s.mem.storeBytes s.pc (tableBytes nbits w)
    memPresent := true
    faulted := none }

end Sys2Proof.Machine
end

