-- ==== Sys2Proof/Machine/HostPort.lean ====
section
/-! DEFINITION. What the host can do to the block between commands, other than `step()` (10_state.md R26 to R32):
construct it, reset it, use its ports, change Memory or make it absent. The register access port reads a register by
its field and a flag by `State.flag`, and writes them by the named writes of Machine/Registers.lean and `State.setFlag`
(R29); the cycle counter port reads the field `cycles` (R30). None of these costs a cycle or appends to the trace but
`resetCommand`. -/

namespace Sys2Proof.Machine

/-- The block as constructed, bound to a Memory with the contents `m` (70_reset_and_hazards.md R264): the registers are
draws, handed in as arguments (D4); the cycle counter is 0 and `faulted` is none. -/
def State.powerOn (a x y sp p : Byte) (pc : Word) (m : Memory) : State where
  a := a
  x := x
  y := y
  sp := sp
  p := p
  pc := pc
  cycles := 0
  mem := m
  memPresent := true
  faulted := none
  trace := []

/-- `reset()` (R260): S down by 3, PC from the vector at 0xFFFC, the record of a fault cleared, nothing else (R262). -/
def resetCommand (s : State) : State :=
  let s1 := s.clearTrace.setSp (s.sp - 3#8)
  let v := readVector resetVector s1
  (v.2.setPc v.1).setFaulted none

/-- `stack_peek()` (20_memory.md R50): the byte at `0x0100 | mod8(S + 1)`; no change, no cycle, no event (D20). -/
def stackPeek (s : State) : Byte := s.peek (stackAddr (s.sp + 1#8))

/-- A write of Memory by the host between commands (R55): no cycle, no event. Where Memory is absent there is nothing
to write (log entry 14). -/
def hostWrite (addr : Word) (v : Byte) (s : State) : State :=
  if s.memPresent then s.setMem (s.mem.write addr.toNat v) else s

/-- Memory ceases to exist (10_state.md R26): nothing makes it present again. -/
def dropMemory (s : State) : State := { s with memPresent := false }

end Sys2Proof.Machine
end

