-- ==== Sys2Proof/Machine/HostActions.lean ====
section
/-! DEFINITION. The life of the block as the host drives it (10_state.md R28, R29; 20_memory.md R55;
70_reset_and_hazards.md R264, R270): a sequence of actions, each complete before the next begins. -/

namespace Sys2Proof.Machine

/-- One action of the host. -/
inductive HostAction where
  /-- `reset()` (R28, R260) -/
  | reset
  /-- `step()` (R28, R80) -/
  | step
  /-- a register written through the register access port (R29) -/
  | writeA (v : Byte)
  | writeX (v : Byte)
  | writeY (v : Byte)
  | writeS (v : Byte)
  | writeP (v : Byte)
  | writePc (v : Word)
  /-- one flag written through that port (R29) -/
  | writeFlag (f : Flag) (v : Bool)
  /-- Memory changed between commands (20_memory.md R55) -/
  | writeMemory (addr : Word) (v : Byte)
  /-- Memory gone for good (R26) -/
  | dropMemory
  deriving DecidableEq, Repr

/-- The state a command leaves behind: the next state, the state a fault leaves (60_exceptions.md R231, R232), or the
state unchanged where the step has no meaning. -/
def leftBy (s : State) : Out → State
  | .next t => t
  | .fault (.undefinedOpcode _ _ t) => t
  | .refused _ => s

/-- The state after one action. -/
def HostAction.perform (act : HostAction) (s : State) : State :=
  match act with
  | .reset => resetCommand s
  | .step => leftBy s (Machine.step s)
  | .writeA v => s.setA v
  | .writeX v => s.setX v
  | .writeY v => s.setY v
  | .writeS v => s.setSp v
  | .writeP v => s.setP v
  | .writePc v => s.setPc v
  | .writeFlag f v => s.setFlag f v
  | .writeMemory addr v => hostWrite addr v s
  | .dropMemory => Machine.dropMemory s

/-- The state after a sequence of actions. -/
def performAll (acts : List HostAction) (s : State) : State := acts.foldl (fun t act => act.perform t) s

end Sys2Proof.Machine
end

