-- ==== Sys2Proof/Safety.lean ====
section
/-! DEFINITION. The terms the claims use: what is unchanged, which states are well-formed, which are reachable, the
effective address and the bus template of each mode, the cycle table. Nothing here is part of the machine; each
definition is written from the spec's rule it names, not from the meanings. -/

namespace Sys2Proof.Machine

/-! ## What an instruction leaves unchanged -/

/-- The 8-bit registers other than P (10_state.md R10 to R13). -/
inductive Reg where
  | a | x | y | s
  deriving DecidableEq, Repr

/-- A register by name. -/
def State.reg (r : Reg) (s : State) : Byte :=
  match r with
  | .a => s.a
  | .x => s.x
  | .y => s.y
  | .s => s.sp

/-- Every register but `rs`, every bit of P but `fs`, every byte of the address space but the addresses `ws`, the
memory reference and the record of a fault are as before. PC, the cycle counter and the trace are said apart. -/
def Frame (rs : List Reg) (fs : List Flag) (ws : List Word) (s t : State) : Prop :=
  (∀ r, r ∉ rs → t.reg r = s.reg r) ∧
  (∀ f, f ∉ fs → t.flag f = s.flag f) ∧
  (∀ addr, addr ∉ ws → t.peek addr = s.peek addr) ∧
  t.memPresent = s.memPresent ∧ t.faulted = s.faulted

/-- N and Z as `setNZ(v)` leaves them (40_sequencer_addressing.md R106). -/
def NZFrom (v : Byte) (t : State) : Prop :=
  t.flag .n = decide (v.toNat ≥ 128) ∧ t.flag .z = decide (v.toNat = 0)

/-! ## Well-formed and reachable states -/

/-- The invariant: memory keeps its canonical form, the trace of a command is part of what the counter has counted
(R81), and only an undefined opcode is ever recorded as a fault (60_exceptions.md R231). -/
def Invariant (s : State) : Prop :=
  s.mem.wf = true ∧ s.trace.length ≤ s.cycles ∧
  ∀ op addr, s.faulted = some (op, addr) → op ∈ undefinedOpcodes

/-- A state the host can bring the block to: constructed with any registers and any memory contents
(70_reset_and_hazards.md R264), then any actions. -/
def Reachable (s : State) : Prop :=
  ∃ a x y sp p pc m acts, Memory.wf m = true ∧ s = performAll acts (State.powerOn a x y sp p pc m)

/-! ## Operands -/

/-- The word at a zero-page pointer, whose high byte wraps within page 0 (20_memory.md R47). -/
def zpPointer (d : Byte) (s : State) : Word := w16 (s.peek (zext16 (d + 1#8))) (s.peek (zext16 d))

/-- The effective address of a mode (40_sequencer_addressing.md R88 to R96). -/
def effectiveAddress (m : MemMode) (s : State) : Word :=
  match m with
  | .zp d => zext16 d
  | .zpx d => zext16 (d + s.x)
  | .zpy d => zext16 (d + s.y)
  | .abs w => w
  | .absx w => w + zext16 s.x
  | .absy w => w + zext16 s.y
  | .indx d => zpPointer (d + s.x) s
  | .indy d => zpPointer d s + zext16 s.y

/-- Whether the mode's index addition crosses a page (R103). -/
def pageCrossed (m : MemMode) (s : State) : Bool :=
  match m with
  | .absx w => crossed w (w + zext16 s.x)
  | .absy w => crossed w (w + zext16 s.y)
  | .indy d => crossed (zpPointer d s) (zpPointer d s + zext16 s.y)
  | _ => false

/-- The uncorrected address of an indexed mode (R103); of the others, the effective address. -/
def uncorrectedAddress (m : MemMode) (s : State) : Word :=
  match m with
  | .absx w => uncorrected w (w + zext16 s.x)
  | .absy w => uncorrected w (w + zext16 s.y)
  | .indy d => uncorrected (zpPointer d s) (zpPointer d s + zext16 s.y)
  | m => effectiveAddress m s

/-- The operand byte `M` of a class-R instruction (R100): the immediate, or the byte at the effective address the
meaning resolves. An instruction of another class has none. -/
def sourceByte (i : Instr) (s : State) : Byte :=
  match i.operand with
  | .imm d => d
  | .mem m => s.peek (resolve m .r s).1
  | _ => 0x00#8

/-- The byte a class-M operation makes of the old byte and the carry (43_incdec_shift_bit.md R150, R151, R156 to R159),
as shifts of the byte. -/
def modified (o : Operation) (old : Byte) (cin : Bool) : Byte :=
  match o with
  | .asl => old <<< 1
  | .lsr => old >>> 1
  | .rol => (old <<< 1) ||| (if cin then 0x01#8 else 0x00#8)
  | .ror => (old >>> 1) ||| (if cin then 0x80#8 else 0x00#8)
  | .inc => old + 0x01#8
  | .dec => old - 0x01#8
  | _ => old

/-- The carry a class-M operation leaves (same rules): the bit shifted out; INC and DEC leave it alone. -/
def modifiedCarry (o : Operation) (old : Byte) (cin : Bool) : Bool :=
  match o with
  | .asl | .rol => old.getLsbD 7
  | .lsr | .ror => old.getLsbD 0
  | _ => cin

/-- Every bit of P. -/
def allFlags : List Flag := [.c, .z, .i, .d, .b, .u, .v, .n]

/-! ## Bus templates (R105) -/

/-- A state after a list of bus events that change nothing else (R81). -/
def State.emit (es : List BusEvent) (s : State) : State :=
  { s with trace := s.trace ++ es, cycles := s.cycles + es.length }

/-- The event of a read-class page crossing, by `readOopsDummyRead` (R98). -/
def oopsEvent (unc : Word) (s : State) : BusEvent :=
  if Config.readOopsDummyRead then .read unc (s.peek unc) else .dead

/-- The oops cycle or dummy read of the indexed modes (R98, R99). -/
def fixupEvents (cls : AccessClass) (m : MemMode) (s : State) : List BusEvent :=
  match m, cls with
  | .absx _, .r | .absy _, .r | .indy _, .r =>
    if pageCrossed m s then [oopsEvent (uncorrectedAddress m s) s] else []
  | .absx _, _ | .absy _, _ | .indy _, _ => [.read (uncorrectedAddress m s) (s.peek (uncorrectedAddress m s))]
  | _, _ => []

/-- The two reads of a zero-page pointer (R95, R96). -/
def pointerEvents (p : Byte) (s : State) : List BusEvent :=
  [.read (zext16 p) (s.peek (zext16 p)), .read (zext16 (p + 1#8)) (s.peek (zext16 (p + 1#8)))]

/-- The events of a mode after the operand fetches and before the operation's own (R105). -/
def addressEvents (cls : AccessClass) (m : MemMode) (s : State) : List BusEvent :=
  match m with
  | .zp _ | .abs _ => []
  | .zpx _ | .zpy _ => [.dead]
  | .absx _ | .absy _ => fixupEvents cls m s
  | .indx d => .dead :: pointerEvents (d + s.x) s
  | .indy d => pointerEvents d s ++ fixupEvents cls m s

/-! ## Cycle counts (R104, 70_reset_and_hazards.md R271) -/

/-- R104's table: the cycles of a whole step, by class and mode; 0 where the table has a dash, a combination no opcode
uses. -/
def accessCycles (cls : AccessClass) (m : MemMode) (s : State) : Nat :=
  match cls, m with
  | .r, .zp _ => 3
  | .r, .zpx _ | .r, .zpy _ => 4
  | .r, .abs _ => 4
  | .r, .absx _ | .r, .absy _ => if pageCrossed m s then 5 else 4
  | .r, .indx _ => 6
  | .r, .indy _ => if pageCrossed m s then 6 else 5
  | .w, .zp _ => 3
  | .w, .zpx _ | .w, .zpy _ => 4
  | .w, .abs _ => 4
  | .w, .absx _ | .w, .absy _ => 5
  | .w, .indx _ => 6
  | .w, .indy _ => 6
  | .m, .zp _ => 5
  | .m, .zpx _ | .m, .zpy _ => 6
  | .m, .abs _ => 6
  | .m, .absx _ | .m, .absy _ => 7
  | .m, .indx _ | .m, .indy _ => 0

/-- The cycles of a whole step of a class-R instruction, immediate or from memory (R104). -/
def readCycles (i : Instr) (s : State) : Nat :=
  match i.operand with
  | .mem m => accessCycles .r m s
  | _ => 2

/-- R271's column "cycles", one row for each high digit of the opcode; an undefined opcode takes 1. -/
def cycleTable : List (List Nat) := [
  [7, 6, 1, 1, 1, 3, 5, 1, 3, 2, 2, 1, 1, 4, 6, 1],
  [2, 5, 1, 1, 1, 4, 6, 1, 2, 4, 1, 1, 1, 4, 7, 1],
  [6, 6, 1, 1, 3, 3, 5, 1, 4, 2, 2, 1, 4, 4, 6, 1],
  [2, 5, 1, 1, 1, 4, 6, 1, 2, 4, 1, 1, 1, 4, 7, 1],
  [6, 6, 1, 1, 1, 3, 5, 1, 3, 2, 2, 1, 3, 4, 6, 1],
  [2, 5, 1, 1, 1, 4, 6, 1, 2, 4, 1, 1, 1, 4, 7, 1],
  [6, 6, 1, 1, 1, 3, 5, 1, 4, 2, 2, 1, 5, 4, 6, 1],
  [2, 5, 1, 1, 1, 4, 6, 1, 2, 4, 1, 1, 1, 4, 7, 1],
  [1, 6, 1, 1, 3, 3, 3, 1, 2, 1, 2, 1, 4, 4, 4, 1],
  [2, 6, 1, 1, 4, 4, 4, 1, 2, 5, 2, 1, 1, 5, 1, 1],
  [2, 6, 2, 1, 3, 3, 3, 1, 2, 2, 2, 1, 4, 4, 4, 1],
  [2, 5, 1, 1, 4, 4, 4, 1, 2, 4, 2, 1, 4, 4, 4, 1],
  [2, 6, 1, 1, 3, 3, 5, 1, 2, 2, 2, 1, 4, 4, 6, 1],
  [2, 5, 1, 1, 1, 4, 6, 1, 2, 4, 1, 1, 1, 4, 7, 1],
  [2, 6, 1, 1, 3, 3, 5, 1, 2, 2, 2, 1, 4, 4, 6, 1],
  [2, 5, 1, 1, 1, 4, 6, 1, 2, 4, 1, 1, 1, 4, 7, 1]
]

/-- R271's count with no page crossed and no branch taken. -/
def baseCycles (op : Byte) : Nat := (cycleTable.getD (op.toNat / 16) []).getD (op.toNat % 16) 0

/-- The condition of a branch (45_control.md R201 to R208). -/
def branchCondition (o : Operation) : Option (Flag × Bool) :=
  match o with
  | .bpl => some (.n, false)
  | .bmi => some (.n, true)
  | .bvc => some (.v, false)
  | .bvs => some (.v, true)
  | .bcc => some (.c, false)
  | .bcs => some (.c, true)
  | .bne => some (.z, false)
  | .beq => some (.z, true)
  | _ => none

/-- R271's column "variant": what is added when a class-R instruction crosses a page, or a branch is taken. `pc` is the
address after the instruction. -/
def extraCycles (i : Instr) (pc : Word) (s : State) : Nat :=
  match i.operation.opClass, i.operand with
  | some .r, .mem m => if pageCrossed m s then 1 else 0
  | some .b, .rel d =>
    match branchCondition i.operation with
    | some (f, v) => if s.flag f = v then (if crossed pc (pc + sext16 d) then 2 else 1) else 0
    | none => 0
  | _, _ => 0

/-! ## The stack -/

/-- The stack location `k` bytes above S, in page 0x01 (20_memory.md R47). -/
def stackAt (k : Int) (s : State) : Word := stackAddr (s.sp + BitVec.ofInt 8 k)

/-- Pushes in order. -/
def pushAll (vs : List Byte) (s : State) : State := vs.foldl (fun t v => push v t) s

/-- `n` pulls, the bytes in the order they come. -/
def pullMany : Nat → State → List Byte × State
  | 0, s => ([], s)
  | n + 1, s =>
    let r := pull s
    let rest := pullMany n r.2
    (r.1 :: rest.1, rest.2)

/-! ## Which instructions write what (10_state.md, sections 1 and 2) -/

/-- The instructions that write A (R10): the shifts only in the accumulator mode. -/
def writesA (i : Instr) : Bool :=
  i.operation ∈ [.lda, .ora, .and, .eor, .adc, .sbc, .txa, .tya, .pla] ||
  (i.operation ∈ [.asl, .lsr, .rol, .ror] && i.operand == .acc)

/-- The operations that write X (R11). -/
def writersOfX : List Operation := [.ldx, .tax, .tsx, .inx, .dex]

/-- The operations that write Y (R12). -/
def writersOfY : List Operation := [.ldy, .tay, .iny, .dey]

/-- The operations that write S (R13). -/
def writersOfS : List Operation := [.txs, .pha, .php, .pla, .plp, .jsr, .rts, .brk, .rti]

/-- The operations that write a flag, by the table of the bits of P (section 2), with PHA among those that call `setNZ`
since `phaSetsNZ` is true (log entry 8). -/
def writersOfFlag : Flag → List Operation
  | .c => [.adc, .sbc, .cmp, .cpx, .cpy, .asl, .lsr, .rol, .ror, .clc, .sec, .plp, .rti]
  | .z | .n => [.lda, .ldx, .ldy, .ora, .and, .eor, .adc, .sbc, .cmp, .cpx, .cpy, .inc, .dec, .inx, .iny, .dex, .dey,
      .asl, .lsr, .rol, .ror, .tax, .tay, .txa, .tya, .tsx, .pla, .pha, .bit, .plp, .rti]
  | .i => [.cli, .sei, .plp, .rti]
  | .d => [.cld, .sed, .plp, .rti]
  | .b => [.brk, .plp, .rti]
  | .u => [.plp, .rti]
  | .v => [.adc, .sbc, .bit, .clv, .plp, .rti]

/-- The instructions that write Memory: the stores, the read-modify-write instructions on memory, and the pushes. -/
def writesMemory (i : Instr) : Bool :=
  i.operation ∈ [.sta, .stx, .sty, .pha, .php, .jsr, .brk] ||
  (i.operation ∈ [.asl, .lsr, .rol, .ror, .inc, .dec] && i.operand != .acc)

/-! ## Outcomes -/

/-- The state of an outcome that is a next state. -/
def next? : Out → Option State
  | .next t => some t
  | .fault _ => none
  | .refused _ => none

end Sys2Proof.Machine
end

