-- ==== Sys2Proof/Certificates/Slice0/Obligations.lean ====
section
/-! DEFINITION. The statements for the provers. `exec i s` is applied to the state after the instruction's own bytes
have been fetched (log entry 11), so in these statements `s.pc` is the address of the next instruction, and the cycles
of a whole step are those of `exec` and one for each byte: a count of R104 or of an instruction's rule stands as
`t.cycles + i.size = s.cycles + count`. -/

open Sys2Proof Sys2Proof.Machine

/-! ## Encoding -/

/-- Decoding reads back what encoding writes, for every well-formed instruction, every operand and whatever bytes follow
(30_encoding.md sections 1 and 2). -/
def Obligations.DecodeReadsBackEncode : Prop :=
  ∀ (i : Instr) (rest : List Byte), i.wf = true → decode (encode i ++ rest) = .ok (i, rest)

/-- Encoding writes back what decoding reads: what decodes is well-formed, and its encoding is the bytes it was read
from, so no bit of an encoding is dropped (30_encoding.md sections 1 and 2). -/
def Obligations.EncodeWritesBackDecode : Prop :=
  ∀ (bs rest : List Byte) (i : Instr), decode bs = .ok (i, rest) → i.wf = true ∧ encode i ++ rest = bs

/-- The opcode map is undefined at exactly the 105 bytes R65 lists, whatever bytes follow (30_encoding.md section 3). -/
def Obligations.UndefinedBytesAreTheListedOnes : Prop :=
  undefinedOpcodes.length = 105 ∧ undefinedOpcodes.Nodup ∧
  ∀ (op d : Byte) (w : Word), (decodeOpcode op d w).operation = .undefined ↔ op ∈ undefinedOpcodes

/-- How an operand is assembled from the bytes after the opcode (30_encoding.md section 1: formats F1, F2, F3 and the
little-endian operand), and how many are consumed. -/
def Obligations.OperandsAreAssembledByFormat : Prop :=
  ∀ (op b1 b2 : Byte) (rest r : List Byte) (i : Instr), decode (op :: b1 :: b2 :: rest) = .ok (i, r) →
    i.opcode = op ∧
    match i.operand with
    | .imp | .acc => r = b1 :: b2 :: rest
    | .imm d | .rel d => d = b1 ∧ r = b2 :: rest
    | .mem (.zp d) | .mem (.zpx d) | .mem (.zpy d) | .mem (.indx d) | .mem (.indy d) => d = b1 ∧ r = b2 :: rest
    | .ind w | .mem (.abs w) | .mem (.absx w) | .mem (.absy w) => w = w16 b2 b1 ∧ r = rest

/-- Words written out from the spec: the five the source gives (A9, 69, 4C, 20, 00) and one of each other family. -/
def Obligations.WordsOfTheSpecDecode : Prop :=
  decode [0xA9#8, 0x05#8] = .ok (.ldaImm 0x05#8, []) ∧
  decode [0x69#8, 0x01#8] = .ok (.adcImm 0x01#8, []) ∧
  decode [0x4C#8, 0xCD#8, 0xAB#8] = .ok (.jmpAbs 0xABCD#16, []) ∧
  decode [0x20#8, 0xCD#8, 0xAB#8] = .ok (.jsr 0xABCD#16, []) ∧
  decode [0x00#8] = .ok (.brk, []) ∧
  decode [0xFE#8, 0xFF#8, 0x10#8] = .ok (.incAbsx 0x10FF#16, []) ∧
  decode [0x9A#8] = .ok (.txs, []) ∧
  decode [0x02#8] = .ok (.undefined 0x02#8, [])

/-! ## The step -/

/-- The fetch of one byte at PC; and a step of a block with no recorded fault runs the instruction its bytes decode to, on
the state in which those bytes have been fetched one by one, each for one cycle, so that PC is past them
(40_sequencer_addressing.md R83). -/
def Obligations.StepRunsTheDecodedInstruction : Prop :=
  (∀ (s : State), fetchByte s = (s.peek s.pc, { s with
    pc := s.pc + 1#16
    cycles := s.cycles + 1
    trace := s.trace ++ [.read s.pc (s.peek s.pc)] })) ∧
  ∀ (s : State) (i : Instr) (rest : List Byte), s.faulted = none →
    decode [s.peek s.pc, s.peek (s.pc + 1#16), s.peek (s.pc + 2#16)] = .ok (i, rest) →
    step s = exec i { s with
      pc := s.pc + BitVec.ofNat 16 i.size
      cycles := s.cycles + i.size
      trace := (List.range i.size).map fun k =>
        .read (s.pc + BitVec.ofNat 16 k) (s.peek (s.pc + BitVec.ofNat 16 k)) }

/-- A documented instruction always completes, from every state: it raises nothing, and it leaves the memory reference
and the record of a fault alone (60_exceptions.md section 1). -/
def Obligations.DocumentedInstructionsComplete : Prop :=
  ∀ (i : Instr) (s : State), i.operation ≠ .undefined →
    ∃ t, exec i s = .next t ∧ t.memPresent = s.memPresent ∧ t.faulted = s.faulted

/-- A step on an undefined opcode byte ends in the fault that names it and its address, with one cycle, PC advanced by
one, the fault recorded and nothing else changed; `exec` of an undefined byte is a fault in every state
(60_exceptions.md section 1, decision D3). -/
def Obligations.UndefinedOpcodeEndsTheStep : Prop :=
  (∀ (s : State), s.faulted = none → s.peek s.pc ∈ undefinedOpcodes →
    step s = .fault (.undefinedOpcode (s.peek s.pc) s.pc { s with
      pc := s.pc + 1#16
      cycles := s.cycles + 1
      trace := [.read s.pc (s.peek s.pc)]
      faulted := some (s.peek s.pc, s.pc) })) ∧
  ∀ (op : Byte) (s : State),
    exec (.undefined op) s = .fault (.undefinedOpcode op (s.pc - 1#16)
      { s with faulted := some (op, s.pc - 1#16) })

/-- While a fault is recorded, a step reports it again and changes nothing (60_exceptions.md section 1, decision D3). -/
def Obligations.FaultedStepRepeatsTheFault : Prop :=
  ∀ (s : State) (op : Byte) (addr : Word), s.faulted = some (op, addr) →
    step s = .fault (.undefinedOpcode op addr s)

/-- A recorded fault lasts through every action of the host but reset, and reset clears it (60_exceptions.md section 1,
decision D3). -/
def Obligations.FaultLastsUntilReset : Prop :=
  (∀ (acts : List HostAction) (s : State) (r : Byte × Word), s.faulted = some r → HostAction.reset ∉ acts →
    (performAll acts s).faulted = some r) ∧
  ∀ (s : State), (HostAction.reset.perform s).faulted = none

/-- The cycles of a step are the events of its trace, whether it ends in a next state or in the fault of an undefined
opcode; a read, a write and a dead cycle are one event each and add one, and a dead cycle touches nothing else
(40_sequencer_addressing.md R81). -/
def Obligations.CyclesAreTheBusEventsOfTheStep : Prop :=
  (∀ (s t : State), s.faulted = none → step s = .next t → t.cycles = s.cycles + t.trace.length) ∧
  (∀ (s t : State) (op : Byte) (addr : Word), s.faulted = none → step s = .fault (.undefinedOpcode op addr t) →
    t.cycles = s.cycles + t.trace.length) ∧
  ∀ (s : State), dead s = { s with trace := s.trace ++ [.dead], cycles := s.cycles + 1 } ∧
    ∀ (addr : Word) (v : Byte),
      (memRead addr s).2.trace = s.trace ++ [.read addr (memRead addr s).1] ∧
      (memRead addr s).2.cycles = s.cycles + 1 ∧
      (memWrite addr v s).trace = s.trace ++ [.write addr v] ∧ (memWrite addr v s).cycles = s.cycles + 1

/-- The cycles of a step are the opcode's count in the table of 70_reset_and_hazards.md section 4, and its variant's
where a page is crossed or a branch is taken. -/
def Obligations.StepTakesTheCyclesOfTheTable : Prop :=
  ∀ (s t : State) (i : Instr) (rest : List Byte), s.faulted = none →
    decode [s.peek s.pc, s.peek (s.pc + 1#16), s.peek (s.pc + 2#16)] = .ok (i, rest) → step s = .next t →
    t.cycles = s.cycles + baseCycles i.opcode + extraCycles i (s.pc + BitVec.ofNat 16 i.size) s

/-- No rule reads the cycle counter or the trace: a step from a state that differs in them alone gives the same next
state, its count moved by the same amount (10_state.md section 3). -/
def Obligations.CounterAndTraceInfluenceNothing : Prop :=
  ∀ (s t : State) (n : Nat) (tr : List BusEvent), s.faulted = none → step s = .next t →
    s.cycles ≤ t.cycles ∧
    step { s with cycles := n, trace := tr } = .next { t with cycles := n + (t.cycles - s.cycles) }

/-! ## Invariants -/

/-- Every step keeps the invariant, in a next state and in the state a fault leaves (the model's canonical memory, log
entry 2, with 40_sequencer_addressing.md section 1 and 60_exceptions.md section 1). -/
def Obligations.StepKeepsTheInvariant : Prop :=
  ∀ (s : State), Invariant s →
    (∀ t, step s = .next t → Invariant t) ∧
    ∀ op addr t, step s = .fault (.undefinedOpcode op addr t) → Invariant t

/-- The state after reset meets the invariant. -/
def Obligations.ResetMeetsTheInvariant : Prop := Invariant State.reset

/-- So does every state the host can bring the block to, from any power-on registers and any memory contents, by any
actions (70_reset_and_hazards.md section 2, 10_state.md section 6). -/
def Obligations.ReachableStatesMeetTheInvariant : Prop := ∀ (s : State), Reachable s → Invariant s

/-- The cycle counter never goes down, whatever the host does (10_state.md section 3: monotonically increasing). -/
def Obligations.CycleCounterNeverDecreases : Prop :=
  ∀ (acts : List HostAction) (s : State), s.cycles ≤ (performAll acts s).cycles

/-- Once Memory is absent it stays absent (10_state.md section 4, decision D17). -/
def Obligations.AbsentMemoryStaysAbsent : Prop :=
  ∀ (acts : List HostAction) (s : State), s.memPresent = false → (performAll acts s).memPresent = false

/-! ## Which instruction writes what -/

/-- A, X, Y and S are written by the instructions 10_state.md section 1 lists and by no other. -/
def Obligations.RegistersHaveTheListedWriters : Prop :=
  ∀ (i : Instr) (s t : State), exec i s = .next t →
    (writesA i = false → t.a = s.a) ∧ (i.operation ∉ writersOfX → t.x = s.x) ∧
    (i.operation ∉ writersOfY → t.y = s.y) ∧ (i.operation ∉ writersOfS → t.sp = s.sp)

/-- Each bit of P is written by the instructions the table of 10_state.md section 2 lists and by no other: so I only by
CLI, SEI, PLP and RTI, B only by BRK, PLP and RTI, bit 5 only by PLP and RTI. PHA among the writers of N and Z is the
spec's default, log entry 8. -/
def Obligations.FlagsHaveTheListedWriters : Prop :=
  ∀ (i : Instr) (s t : State) (f : Flag), exec i s = .next t → i.operation ∉ writersOfFlag f → t.flag f = s.flag f

/-- Memory is written by the stores, the read-modify-write instructions on memory, PHA, PHP, JSR and BRK, and by no
other instruction (40_sequencer_addressing.md section 2, 44 and 45). -/
def Obligations.MemoryHasTheListedWriters : Prop :=
  ∀ (i : Instr) (s t : State), exec i s = .next t → writesMemory i = false → t.mem = s.mem

/-! ## The bus and the stack -/

/-- The two bus primitives (20_memory.md R42, R43): a read gives Memory's byte, or 0x00 where Memory is absent; a write
is seen at its address and nowhere else, or discarded where Memory is absent; each is one event and one cycle. -/
def Obligations.BusReadsAndWrites : Prop :=
  ∀ (addr : Word) (v : Byte) (s : State), s.mem.wf = true →
    memRead addr s = (if s.memPresent then s.mem.read addr.toNat else 0x00#8,
      { s with
        trace := s.trace ++ [.read addr (if s.memPresent then s.mem.read addr.toNat else 0x00#8)]
        cycles := s.cycles + 1 }) ∧
    (s.memPresent = true → ∀ other : Word, (memWrite addr v s).mem.read other.toNat =
      if other = addr then v else s.mem.read other.toNat) ∧
    (s.memPresent = false → (memWrite addr v s).mem = s.mem) ∧
    ∃ m, memWrite addr v s = { s with mem := m, trace := s.trace ++ [.write addr v], cycles := s.cycles + 1 }

/-- The stack primitives (20_memory.md R48, R49): a push writes at 0x0100 + S, then S goes down, wrapping; a pull takes
S up, wrapping, then reads there; each is one event. -/
def Obligations.PushAndPull : Prop :=
  ∀ (v : Byte) (s : State), s.mem.wf = true →
    (∃ t, push v s = t ∧
      t.sp.toNat = (s.sp.toNat + 255) % 256 ∧
      t.peek (BitVec.ofNat 16 (0x0100 + s.sp.toNat)) = (if s.memPresent then v else 0x00#8) ∧
      t.pc = s.pc ∧ t.cycles = s.cycles + 1 ∧
      t.trace = s.trace ++ [.write (BitVec.ofNat 16 (0x0100 + s.sp.toNat)) v] ∧
      Frame [.s] [] [BitVec.ofNat 16 (0x0100 + s.sp.toNat)] s t) ∧
    ∃ t b, pull s = (b, t) ∧
      t.sp.toNat = (s.sp.toNat + 1) % 256 ∧
      b = s.peek (BitVec.ofNat 16 (0x0100 + (s.sp.toNat + 1) % 256)) ∧
      t.pc = s.pc ∧ t.cycles = s.cycles + 1 ∧
      t.trace = s.trace ++ [.read (BitVec.ofNat 16 (0x0100 + (s.sp.toNat + 1) % 256)) b] ∧
      Frame [.s] [] [] s t

/-- Stack discipline (95_test_vectors.md W9): after any number of pushes and as many pulls S is what it was, and up to
256 bytes come back last in, first out. -/
def Obligations.StackIsLastInFirstOut : Prop :=
  ∀ (vs : List Byte) (s : State), s.mem.wf = true →
    (pullMany vs.length (pushAll vs s)).2.sp = s.sp ∧
    (s.memPresent = true → vs.length ≤ 256 → (pullMany vs.length (pushAll vs s)).1 = vs.reverse)

/-- With Memory absent every fetch gives 0x00, which is BRK: the step takes the trap to 0x0000 in 7 cycles
(20_memory.md section 2; the consequence is the spec's own inference). -/
def Obligations.AbsentMemoryStepTakesTheTrap : Prop :=
  ∀ (s : State), s.faulted = none → s.memPresent = false →
    ∃ t, step s = .next t ∧ t.pc = 0x0000#16 ∧ t.sp = s.sp - 3#8 ∧ t.flag .b = true ∧ t.cycles = s.cycles + 7 ∧
      t.trace = [.read s.pc 0x00#8, .dead,
        .write (stackAt 0 s) (hi (s.pc + 2#16)), .write (stackAt (-1) s) (lo (s.pc + 2#16)), .write (stackAt (-2) s) s.p,
        .read 0xFFFE#16 0x00#8, .read 0xFFFF#16 0x00#8] ∧
      Frame [.s] [.b] [] s t

/-! ## Addressing modes -/

/-- The effective addresses of Zero Page, Zero Page,X, Zero Page,Y, Absolute, Absolute,X and Absolute,Y, as numbers: the
zero-page sums stay in the zero page, the absolute ones wrap at 16 bits (40_sequencer_addressing.md section 4). -/
def Obligations.DirectModesAddressAsStated : Prop :=
  ∀ (d : Byte) (w : Word) (cls : AccessClass) (s : State),
    (resolve (.zp d) cls s).1.toNat = d.toNat ∧
    (resolve (.zpx d) cls s).1.toNat = (d.toNat + s.x.toNat) % 256 ∧
    (resolve (.zpy d) cls s).1.toNat = (d.toNat + s.y.toNat) % 256 ∧
    (resolve (.abs w) cls s).1.toNat = w.toNat ∧
    (resolve (.absx w) cls s).1.toNat = (w.toNat + s.x.toNat) % 65536 ∧
    (resolve (.absy w) cls s).1.toNat = (w.toNat + s.y.toNat) % 65536

/-- The effective addresses of the indirect modes: both pointer bytes of (d,X) and (d),Y lie in the zero page, and the
high byte of JMP's pointer in the pointer's own page (40_sequencer_addressing.md section 4). -/
def Obligations.IndirectModesAddressAsStated : Prop :=
  ∀ (d : Byte) (w : Word) (cls : AccessClass) (s : State),
    (resolve (.indx d) cls s).1.toNat =
      (s.peek (BitVec.ofNat 16 ((d.toNat + s.x.toNat) % 256))).toNat +
      256 * (s.peek (BitVec.ofNat 16 ((d.toNat + s.x.toNat + 1) % 256))).toNat ∧
    (resolve (.indy d) cls s).1.toNat =
      ((s.peek (BitVec.ofNat 16 d.toNat)).toNat +
        256 * (s.peek (BitVec.ofNat 16 ((d.toNat + 1) % 256))).toNat + s.y.toNat) % 65536 ∧
    (resolveInd w s).1.toNat =
      (s.peek w).toNat +
      256 * (s.peek (BitVec.ofNat 16 (w.toNat / 256 * 256 + (w.toNat % 256 + 1) % 256))).toNat

/-- Resolving an address changes nothing but the trace and the counter, by the events of the mode and class: the dead
cycle of the zero-page indexed modes, the pointer reads, the oops cycle where a read crosses a page, the dummy read of
the uncorrected address that a store or read-modify-write always makes (40_sequencer_addressing.md sections 4, 5 and 7,
decisions D11, D12, D22). -/
def Obligations.AddressingMakesTheEventsOfTheMode : Prop :=
  ∀ (m : MemMode) (cls : AccessClass) (s : State),
    (resolve m cls s).2 = { s with
      trace := s.trace ++ addressEvents cls m s
      cycles := s.cycles + (addressEvents cls m s).length }

/-- The whole bus template of an instruction on memory, by class: after the mode's events, a read; a write of the
register; or a read, a dead cycle and a write of the new byte, never of the old one
(40_sequencer_addressing.md sections 6 and 7). -/
def Obligations.MemoryInstructionsFollowTheBusTemplate : Prop :=
  ∀ (i : Instr) (m : MemMode) (s : State), i.operand = .mem m →
    (i.operation.opClass = some .r → ∃ t, exec i s = .next t ∧
      t.trace = s.trace ++ addressEvents .r m s ++ [.read (resolve m .r s).1 (s.peek (resolve m .r s).1)]) ∧
    (∀ r, (i.operation, r) ∈ [(.sta, Reg.a), (.stx, .x), (.sty, .y)] → ∃ t, exec i s = .next t ∧
      t.trace = s.trace ++ addressEvents .w m s ++ [.write (resolve m .w s).1 (s.reg r)]) ∧
    (i.operation.opClass = some .m → ∃ t, exec i s = .next t ∧
      t.trace = s.trace ++ addressEvents .m m s ++
        [.read (resolve m .m s).1 (s.peek (resolve m .m s).1), .dead,
         .write (resolve m .m s).1 (modified i.operation (s.peek (resolve m .m s).1) (s.flag .c))])

/-! ## Loads and stores -/

/-- LDA, LDX and LDY in every mode (41_load_store.md R120 to R122), with the opcode byte each mode has
(decision D2). -/
def Obligations.LoadsCopyTheOperand : Prop :=
  ∀ (i : Instr) (r : Reg) (s : State), (i.operation, r) ∈ [(.lda, Reg.a), (.ldx, .x), (.ldy, .y)] →
    ∃ t, exec i s = .next t ∧ t.reg r = sourceByte i s ∧ NZFrom (sourceByte i s) t ∧ t.pc = s.pc ∧
      t.cycles + i.size = s.cycles + readCycles i s ∧ Frame [r] [.n, .z] [] s t ∧
      (i.operation, i.mode, i.opcode) ∈ [
        (.lda, .indx, 0xA1#8), (.lda, .zp, 0xA5#8), (.lda, .imm, 0xA9#8), (.lda, .abs, 0xAD#8),
        (.lda, .indy, 0xB1#8), (.lda, .zpx, 0xB5#8), (.lda, .absy, 0xB9#8), (.lda, .absx, 0xBD#8),
        (.ldx, .imm, 0xA2#8), (.ldx, .zp, 0xA6#8), (.ldx, .abs, 0xAE#8), (.ldx, .zpy, 0xB6#8),
        (.ldx, .absy, 0xBE#8), (.ldy, .imm, 0xA0#8), (.ldy, .zp, 0xA4#8), (.ldy, .abs, 0xAC#8),
        (.ldy, .zpx, 0xB4#8), (.ldy, .absx, 0xBC#8)]

/-- STA, STX and STY in every mode (41_load_store.md R123 to R125): the byte stored, where, that no flag and no
other byte changes, and the opcode byte each mode has (decision D2). -/
def Obligations.StoresWriteTheRegister : Prop :=
  ∀ (i : Instr) (r : Reg) (s : State), s.mem.wf = true → (i.operation, r) ∈ [(.sta, Reg.a), (.stx, .x), (.sty, .y)] →
    ∃ m t, i.operand = .mem m ∧ exec i s = .next t ∧
      t.peek (resolve m .w s).1 = (if s.memPresent then s.reg r else 0x00#8) ∧ t.pc = s.pc ∧
      t.cycles + i.size = s.cycles + accessCycles .w m s ∧ Frame [] [] [(resolve m .w s).1] s t ∧
      (i.operation, i.mode, i.opcode) ∈ [
        (.sta, .indx, 0x81#8), (.sta, .zp, 0x85#8), (.sta, .abs, 0x8D#8), (.sta, .indy, 0x91#8),
        (.sta, .zpx, 0x95#8), (.sta, .absy, 0x99#8), (.sta, .absx, 0x9D#8), (.stx, .zp, 0x86#8),
        (.stx, .abs, 0x8E#8), (.stx, .zpy, 0x96#8), (.sty, .zp, 0x84#8), (.sty, .abs, 0x8C#8), (.sty, .zpx, 0x94#8)]

/-! ## Arithmetic and logic -/

/-- ORA, AND and EOR in every mode (42_alu.md R130 to R132), with the opcode byte each mode has
(decision D2). -/
def Obligations.LogicCombinesAWithTheOperand : Prop :=
  ∀ (i : Instr) (v : Byte) (s : State),
    (i.operation, v) ∈ [(.ora, s.a ||| sourceByte i s), (.and, s.a &&& sourceByte i s), (.eor, s.a ^^^ sourceByte i s)] →
    ∃ t, exec i s = .next t ∧ t.a = v ∧ NZFrom v t ∧ t.pc = s.pc ∧
      t.cycles + i.size = s.cycles + readCycles i s ∧ Frame [.a] [.n, .z] [] s t ∧
      (i.operation, i.mode, i.opcode) ∈ [
        (.ora, .indx, 0x01#8), (.ora, .zp, 0x05#8), (.ora, .imm, 0x09#8), (.ora, .abs, 0x0D#8),
        (.ora, .indy, 0x11#8), (.ora, .zpx, 0x15#8), (.ora, .absy, 0x19#8), (.ora, .absx, 0x1D#8),
        (.and, .indx, 0x21#8), (.and, .zp, 0x25#8), (.and, .imm, 0x29#8), (.and, .abs, 0x2D#8),
        (.and, .indy, 0x31#8), (.and, .zpx, 0x35#8), (.and, .absy, 0x39#8), (.and, .absx, 0x3D#8),
        (.eor, .indx, 0x41#8), (.eor, .zp, 0x45#8), (.eor, .imm, 0x49#8), (.eor, .abs, 0x4D#8),
        (.eor, .indy, 0x51#8), (.eor, .zpx, 0x55#8), (.eor, .absy, 0x59#8), (.eor, .absx, 0x5D#8)]

/-- ADC in every mode (42_alu.md, ADC): the sum, its carry, and V exactly where A and M have one sign and the result
the other. With P.D = 1 too, by the default `decimalPolicy` (log entry 9). -/
def Obligations.AdcAddsWithCarry : Prop :=
  ∀ (i : Instr) (s : State), i.operation = .adc →
    ∃ t, exec i s = .next t ∧
      t.a.toNat = (s.a.toNat + (sourceByte i s).toNat + (s.flag .c).toNat) % 256 ∧
      t.flag .c = decide (s.a.toNat + (sourceByte i s).toNat + (s.flag .c).toNat > 255) ∧
      t.flag .v = decide (s.a.msb = (sourceByte i s).msb ∧ t.a.msb ≠ s.a.msb) ∧
      NZFrom t.a t ∧ t.pc = s.pc ∧
      t.cycles + i.size = s.cycles + readCycles i s ∧ Frame [.a] [.c, .v, .n, .z] [] s t

/-- SBC in every mode (42_alu.md, SBC): the difference `A - M - (1 - C)` as an integer, C where there is no borrow, V
exactly where A and M have different signs and the result's is not A's. With P.D = 1 too (log entry 9). -/
def Obligations.SbcSubtractsWithBorrow : Prop :=
  ∀ (i : Instr) (s : State), i.operation = .sbc →
    ∃ t, exec i s = .next t ∧
      (t.a.toNat : Int) = ((s.a.toNat : Int) - (sourceByte i s).toNat - (1 - (s.flag .c).toNat)) % 256 ∧
      t.flag .c = decide ((s.a.toNat : Int) - (sourceByte i s).toNat - (1 - (s.flag .c).toNat) ≥ 0) ∧
      t.flag .v = decide (s.a.msb ≠ (sourceByte i s).msb ∧ t.a.msb ≠ s.a.msb) ∧
      NZFrom t.a t ∧ t.pc = s.pc ∧
      t.cycles + i.size = s.cycles + readCycles i s ∧ Frame [.a] [.c, .v, .n, .z] [] s t

/-- The corrected round trip of the source's ADC and SBC property (90_conflicts.md C4, 95_test_vectors.md W7): SBC of
the same byte with the complement of ADC's carry-in restores A. -/
def Obligations.SbcUndoesAdc : Prop :=
  ∀ (m : Byte) (s : State), ∃ t u, exec (.adcImm m) s = .next t ∧
    exec (.sbcImm m) (t.setFlag .c (!s.flag .c)) = .next u ∧ u.a = s.a

/-- ADC and SBC do not depend on P.D: with D set or cleared first they give the same state, D apart, in every mode; and
under `decimalPolicy = refuse` they would be refused exactly where D is set (42_alu.md, The Decimal flag; D13; log
entry 9). -/
def Obligations.DecimalFlagChangesNoArithmetic : Prop :=
  (∀ (i : Instr) (s : State) (d : Bool), i.operation = .adc ∨ i.operation = .sbc →
    ∃ t, exec i s = .next t ∧ exec i (s.setFlag .d d) = .next (t.setFlag .d d)) ∧
  ∀ (s t : State), arithOutcome .binary s t = .next t ∧
    arithOutcome .refuse s t = (if s.flag .d then .refused .decimalMode else .next t)

/-- CMP, CPX and CPY in every mode (42_alu.md, Compare and CMP to CPY): C is the signed comparison, the source's
normative behaviour (D14, log entry 7); no register changes. -/
def Obligations.ComparesSetCarryBySignedOrder : Prop :=
  ∀ (i : Instr) (r : Reg) (s : State), (i.operation, r) ∈ [(.cmp, Reg.a), (.cpx, .x), (.cpy, .y)] →
    ∃ t, exec i s = .next t ∧
      t.flag .c = decide ((s.reg r).toInt ≥ (sourceByte i s).toInt) ∧
      NZFrom (s.reg r - sourceByte i s) t ∧ t.pc = s.pc ∧
      t.cycles + i.size = s.cycles + readCycles i s ∧ Frame [] [.c, .n, .z] [] s t

/-- The two carry rules of a compare agree where bit 7 of the operands agrees, and differ where it differs
(42_alu.md, Compare; D14). -/
def Obligations.CompareCarryRulesDifferBySign : Prop :=
  ∀ (r m : Byte), compareCarry .unsigned r m = decide (r.toNat ≥ m.toNat) ∧
    compareCarry .signed r m = (if r.msb = m.msb then compareCarry .unsigned r m else !compareCarry .unsigned r m)

/-- BIT in both modes (43_incdec_shift_bit.md R160), with the opcode byte each mode has
(decision D2). -/
def Obligations.BitTestsTheOperand : Prop :=
  ∀ (i : Instr) (s : State), i.operation = .bit →
    ∃ t, exec i s = .next t ∧
      t.flag .z = decide (s.a &&& sourceByte i s = 0x00#8) ∧
      t.flag .n = (sourceByte i s).getLsbD 7 ∧ t.flag .v = (sourceByte i s).getLsbD 6 ∧ t.pc = s.pc ∧
      t.cycles + i.size = s.cycles + readCycles i s ∧ Frame [] [.z, .n, .v] [] s t ∧
      (i.operation, i.mode, i.opcode) ∈ [(.bit, .zp, 0x24#8), (.bit, .abs, 0x2C#8)]

/-! ## Increment, decrement, shifts and rotates -/

/-- INC, DEC, ASL, LSR, ROL and ROR on memory, in every mode (43_incdec_shift_bit.md, INC to ROR; decision D9): the new
byte, where it goes, the carry (INC and DEC leave it alone), N and Z, and that nothing else changes. -/
def Obligations.ModifiesRewriteTheByte : Prop :=
  ∀ (i : Instr) (m : MemMode) (s : State), s.mem.wf = true → i.operation.opClass = some .m → i.operand = .mem m →
    ∃ t, exec i s = .next t ∧
      t.peek (resolve m .m s).1 =
        (if s.memPresent then modified i.operation (s.peek (resolve m .m s).1) (s.flag .c) else 0x00#8) ∧
      t.flag .c = modifiedCarry i.operation (s.peek (resolve m .m s).1) (s.flag .c) ∧
      NZFrom (modified i.operation (s.peek (resolve m .m s).1) (s.flag .c)) t ∧ t.pc = s.pc ∧
      t.cycles + i.size = s.cycles + accessCycles .m m s ∧ Frame [] [.c, .n, .z] [(resolve m .m s).1] s t

/-- ASL, LSR, ROL and ROR on A (43_incdec_shift_bit.md, ASL to ROR; decision D8 for the dead cycle): no Memory
access. -/
def Obligations.AccumulatorShiftsRewriteA : Prop :=
  ∀ (i : Instr) (s : State), i.operation.opClass = some .m → i.operand = .acc →
    ∃ t, exec i s = .next t ∧ t.a = modified i.operation s.a (s.flag .c) ∧
      t.flag .c = modifiedCarry i.operation s.a (s.flag .c) ∧ NZFrom t.a t ∧ t.pc = s.pc ∧
      t.trace = s.trace ++ [.dead] ∧ t.cycles + i.size = s.cycles + 2 ∧ Frame [.a] [.c, .n, .z] [] s t

/-- INX, INY, DEX and DEY (43_incdec_shift_bit.md, INX to DEY; decision D8): wrapping, N and Z, the carry left alone. -/
def Obligations.IndexRegistersCountModulo256 : Prop :=
  ∀ (i : Instr) (r : Reg) (n : Nat) (s : State),
    (i, r, n) ∈ [(.inx, Reg.x, 1), (.iny, .y, 1), (.dex, .x, 255), (.dey, .y, 255)] →
    ∃ t, exec i s = .next t ∧ (t.reg r).toNat = ((s.reg r).toNat + n) % 256 ∧ NZFrom (t.reg r) t ∧ t.pc = s.pc ∧
      t.trace = s.trace ++ [.dead] ∧ t.cycles + i.size = s.cycles + 2 ∧ Frame [r] [.n, .z] [] s t

/-! ## Transfers, stack, flags -/

/-- TAX, TAY, TXA, TYA and TSX (44_transfer_stack_flag.md, Register transfers; decision D8). -/
def Obligations.TransfersCopyARegister : Prop :=
  ∀ (i : Instr) (src dst : Reg) (s : State),
    (i, src, dst) ∈ [(.tax, Reg.a, Reg.x), (.tay, .a, .y), (.txa, .x, .a), (.tya, .y, .a), (.tsx, .s, .x)] →
    ∃ t, exec i s = .next t ∧ t.reg dst = s.reg src ∧ NZFrom (s.reg src) t ∧ t.pc = s.pc ∧
      t.trace = s.trace ++ [.dead] ∧ t.cycles + i.size = s.cycles + 2 ∧ Frame [dst] [.n, .z] [] s t

/-- TXS writes S and no flag (44_transfer_stack_flag.md, Register transfers; decision D8). -/
def Obligations.TxsWritesNoFlag : Prop :=
  ∀ (s : State), ∃ t, exec .txs s = .next t ∧ t.sp = s.x ∧ t.pc = s.pc ∧
    t.trace = s.trace ++ [.dead] ∧ t.cycles + Instr.txs.size = s.cycles + 2 ∧ Frame [.s] [] [] s t

/-- PHA (44_transfer_stack_flag.md, Stack instructions; decisions D10 and D16): A is pushed, and N and Z are set from it
by the default `phaSetsNZ` (log entry 8). -/
def Obligations.PhaPushesA : Prop :=
  ∀ (s : State), s.mem.wf = true →
    ∃ t, exec .pha s = .next t ∧ t.peek (stackAt 0 s) = (if s.memPresent then s.a else 0x00#8) ∧
      t.sp = s.sp - 1#8 ∧ NZFrom s.a t ∧ t.pc = s.pc ∧
      t.trace = s.trace ++ [.dead, .write (stackAt 0 s) s.a] ∧
      t.cycles + Instr.pha.size = s.cycles + 3 ∧ Frame [.s] [.n, .z] [stackAt 0 s] s t

/-- PHP (44_transfer_stack_flag.md, Stack instructions; decisions D10 and D15): P is pushed as stored, B and bit 5
included, and no flag changes. -/
def Obligations.PhpPushesPAsStored : Prop :=
  ∀ (s : State), s.mem.wf = true →
    ∃ t, exec .php s = .next t ∧ t.peek (stackAt 0 s) = (if s.memPresent then s.p else 0x00#8) ∧
      t.sp = s.sp - 1#8 ∧ t.pc = s.pc ∧ t.trace = s.trace ++ [.dead, .write (stackAt 0 s) s.p] ∧
      t.cycles + Instr.php.size = s.cycles + 3 ∧ Frame [.s] [] [stackAt 0 s] s t

/-- PLA and PLP (44_transfer_stack_flag.md, Stack instructions; decisions D10 and D15): A with N and Z, or all 8 bits of
P as pulled. -/
def Obligations.PullsLoadAOrP : Prop :=
  ∀ (s : State),
    (∃ t, exec .pla s = .next t ∧ t.a = s.peek (stackAt 1 s) ∧ NZFrom (s.peek (stackAt 1 s)) t ∧
      t.sp = s.sp + 1#8 ∧ t.pc = s.pc ∧
      t.trace = s.trace ++ [.dead, .dead, .read (stackAt 1 s) (s.peek (stackAt 1 s))] ∧
      t.cycles + Instr.pla.size = s.cycles + 4 ∧ Frame [.a, .s] [.n, .z] [] s t) ∧
    ∃ t, exec .plp s = .next t ∧ t.p = s.peek (stackAt 1 s) ∧ t.sp = s.sp + 1#8 ∧ t.pc = s.pc ∧
      t.trace = s.trace ++ [.dead, .dead, .read (stackAt 1 s) (s.peek (stackAt 1 s))] ∧
      t.cycles + Instr.plp.size = s.cycles + 4 ∧ Frame [.s] allFlags [] s t

/-- CLC, SEC, CLI, SEI, CLV, CLD and SED write their one flag and nothing else, for one dead cycle
(44_transfer_stack_flag.md R180 to R186); the opcode byte of each (decision D2). -/
def Obligations.FlagInstructionsWriteOneFlag : Prop :=
  ∀ (i : Instr) (f : Flag) (v : Bool) (op : Byte) (s : State),
    (i, f, v, op) ∈ [(.clc, Flag.c, false, 0x18#8), (.sec, .c, true, 0x38#8), (.cli, .i, false, 0x58#8),
      (.sei, .i, true, 0x78#8), (.clv, .v, false, 0xB8#8), (.cld, .d, false, 0xD8#8), (.sed, .d, true, 0xF8#8)] →
    i.opcode = op ∧ ∃ t, exec i s = .next t ∧ t.flag f = v ∧ t.pc = s.pc ∧ t.trace = s.trace ++ [.dead] ∧
      t.cycles + i.size = s.cycles + 2 ∧ Frame [] [f] [] s t

/-! ## Control -/

/-- The eight branches (45_control.md, Conditional branches; decision D27 for the page test): taken exactly where the
flag has the value, to PC plus the signed offset, modulo 65536, for one cycle more, or two where the target is in
another page than the next instruction. -/
def Obligations.BranchesAreTakenOnTheirFlag : Prop :=
  ∀ (i : Instr) (f : Flag) (v : Bool) (s : State), branchCondition i.operation = some (f, v) →
    ∃ d t, i.operand = .rel d ∧ exec i s = .next t ∧
      (t.pc.toNat : Int) = (if s.flag f = v then ((s.pc.toNat : Int) + d.toInt) % 65536 else (s.pc.toNat : Int)) ∧
      t.trace = s.trace ++ (if s.flag f = v then
        (if t.pc.toNat / 256 = s.pc.toNat / 256 then [.dead] else [.dead, .dead]) else []) ∧
      t.cycles + i.size = s.cycles +
        (if s.flag f = v then (if t.pc.toNat / 256 = s.pc.toNat / 256 then 3 else 4) else 2) ∧
      Frame [] [] [] s t

/-- JMP, absolute and indirect (45_control.md R209): PC is the effective address, no flag changes, no extra cycle;
the opcode byte of each (6C by decision D2). -/
def Obligations.JumpsLoadPc : Prop :=
  ∀ (w : Word) (s : State),
    (Instr.jmpAbs w).opcode = 0x4C#8 ∧ (Instr.jmpInd w).opcode = 0x6C#8 ∧
    (∃ t, exec (.jmpAbs w) s = .next t ∧ t.pc = w ∧ t.trace = s.trace ∧
      t.cycles + (Instr.jmpAbs w).size = s.cycles + 3 ∧ Frame [] [] [] s t) ∧
    ∃ t, exec (.jmpInd w) s = .next t ∧ t.pc = w16 (s.peek (w16 (hi w) (lo w + 1#8))) (s.peek w) ∧
      t.trace = s.trace ++ [.read w (s.peek w),
        .read (w16 (hi w) (lo w + 1#8)) (s.peek (w16 (hi w) (lo w + 1#8)))] ∧
      t.cycles + (Instr.jmpInd w).size = s.cycles + 5 ∧ Frame [] [] [] s t

/-- JSR, opcode 20 (45_control.md R210): a dead cycle, the next instruction's address pushed high then low, PC to the operand. -/
def Obligations.JsrPushesTheNextAddress : Prop :=
  ∀ (w : Word) (s : State), s.mem.wf = true →
    (Instr.jsr w).opcode = 0x20#8 ∧ ∃ t, exec (.jsr w) s = .next t ∧ t.pc = w ∧ t.sp = s.sp - 2#8 ∧
      t.peek (stackAt 0 s) = (if s.memPresent then hi s.pc else 0x00#8) ∧
      t.peek (stackAt (-1) s) = (if s.memPresent then lo s.pc else 0x00#8) ∧
      t.trace = s.trace ++ [.dead, .write (stackAt 0 s) (hi s.pc), .write (stackAt (-1) s) (lo s.pc)] ∧
      t.cycles + (Instr.jsr w).size = s.cycles + 6 ∧ Frame [.s] [] [stackAt 0 s, stackAt (-1) s] s t

/-- RTS, opcode 60 by decision D2 (45_control.md R211): three dead cycles, PC pulled low then high, no increment. -/
def Obligations.RtsPullsPcWithoutIncrement : Prop :=
  Instr.rts.opcode = 0x60#8 ∧ ∀ (s : State), ∃ t, exec .rts s = .next t ∧ t.pc = w16 (s.peek (stackAt 2 s)) (s.peek (stackAt 1 s)) ∧
    t.sp = s.sp + 2#8 ∧
    t.trace = s.trace ++ [.dead, .dead, .dead, .read (stackAt 1 s) (s.peek (stackAt 1 s)),
      .read (stackAt 2 s) (s.peek (stackAt 2 s))] ∧
    t.cycles + Instr.rts.size = s.cycles + 6 ∧ Frame [.s] [] [] s t

/-- JSR followed by RTS returns to the instruction after the JSR, with S as before (45_control.md, Subroutines). -/
def Obligations.RtsReturnsFromJsr : Prop :=
  ∀ (w : Word) (s : State), s.mem.wf = true → s.memPresent = true →
    ∃ t u, exec (.jsr w) s = .next t ∧ exec .rts t = .next u ∧ u.pc = s.pc ∧ u.sp = s.sp

/-- BRK, the trap's entry (45_control.md, Software trap; 60_exceptions.md section 3; decision D26): the address past the
skipped byte and P as stored are pushed, PC is loaded from 0xFFFE/0xFFFF, B is then set, and I, D and every other flag
are left alone. -/
def Obligations.BrkEntersTheTrap : Prop :=
  ∀ (s : State), s.mem.wf = true →
    ∃ t, exec .brk s = .next t ∧ t.pc = w16 (s.peek 0xFFFF#16) (s.peek 0xFFFE#16) ∧ t.sp = s.sp - 3#8 ∧
      t.flag .b = true ∧
      t.peek (stackAt 0 s) = (if s.memPresent then hi (s.pc + 1#16) else 0x00#8) ∧
      t.peek (stackAt (-1) s) = (if s.memPresent then lo (s.pc + 1#16) else 0x00#8) ∧
      t.peek (stackAt (-2) s) = (if s.memPresent then s.p else 0x00#8) ∧
      t.trace = s.trace ++ [.dead, .write (stackAt 0 s) (hi (s.pc + 1#16)), .write (stackAt (-1) s) (lo (s.pc + 1#16)),
        .write (stackAt (-2) s) s.p, .read 0xFFFE#16 (s.peek 0xFFFE#16), .read 0xFFFF#16 (s.peek 0xFFFF#16)] ∧
      t.cycles + Instr.brk.size = s.cycles + 7 ∧
      Frame [.s] [.b] [stackAt 0 s, stackAt (-1) s, stackAt (-2) s] s t

/-- RTI, opcode 40 by decision D2, the trap's return (45_control.md R213): P with all 8 bits, then PC low and high, nothing added. -/
def Obligations.RtiRestoresPAndPc : Prop :=
  Instr.rti.opcode = 0x40#8 ∧ ∀ (s : State), ∃ t, exec .rti s = .next t ∧ t.p = s.peek (stackAt 1 s) ∧
    t.pc = w16 (s.peek (stackAt 3 s)) (s.peek (stackAt 2 s)) ∧ t.sp = s.sp + 3#8 ∧
    t.trace = s.trace ++ [.dead, .read (stackAt 1 s) (s.peek (stackAt 1 s)), .dead,
      .read (stackAt 2 s) (s.peek (stackAt 2 s)), .read (stackAt 3 s) (s.peek (stackAt 3 s))] ∧
    t.cycles + Instr.rti.size = s.cycles + 6 ∧ Frame [.s] allFlags [] s t

/-- BRK followed by RTI restores P, B included, and S, and goes on at the BRK's address + 2; A, X, Y and every byte but
the three BRK pushed are as before (60_exceptions.md section 3, the spec's own inference; log entry 15). -/
def Obligations.RtiUndoesBrk : Prop :=
  ∀ (s : State), s.mem.wf = true → s.memPresent = true →
    ∃ t u, exec .brk s = .next t ∧ exec .rti t = .next u ∧ u.p = s.p ∧ u.pc = s.pc + 1#16 ∧
      Frame [] [] [stackAt 0 s, stackAt (-1) s, stackAt (-2) s] s u

/-- NOP, opcode EA by decision D2 (45_control.md R214): one dead cycle, no other effect. -/
def Obligations.NopSpendsADeadCycle : Prop :=
  Instr.nop.opcode = 0xEA#8 ∧ ∀ (s : State), exec .nop s = .next { s with trace := s.trace ++ [.dead], cycles := s.cycles + 1 }

/-! ## Reset -/

/-- `reset()` from any state (70_reset_and_hazards.md section 1; decisions D3, D6, D7): S down by 3, PC from the vector,
the record cleared, two cycles for the two reads, and A, X, Y, P, Memory and the memory reference unchanged. -/
def Obligations.ResetLoadsPcFromTheVector : Prop :=
  ∀ (s : State), resetCommand s = { s with
    sp := BitVec.ofNat 8 (s.sp.toNat + 253)
    pc := w16 (s.peek 0xFFFD#16) (s.peek 0xFFFC#16)
    faulted := none
    cycles := s.cycles + 2
    trace := [.read 0xFFFC#16 (s.peek 0xFFFC#16), .read 0xFFFD#16 (s.peek 0xFFFD#16)] }

/-- The model's reset state is `reset()` of the block constructed with every power-on draw 0 and no memory listed. The
draws and the memory are the model's choice (log entries 1 and 2). -/
def Obligations.ResetStateIsResetOfPowerOn : Prop :=
  State.reset = resetCommand (State.powerOn 0x00#8 0x00#8 0x00#8 0x00#8 0x00#8 0x0000#16 [])

/-- The host's ports (20_memory.md section 4, `stack_peek`, and section 7; 10_state.md section 6): the stack peek gives
the byte a pull would give; a write of Memory between commands is seen at its address only and costs nothing; a register
or flag written through the access port changes that one only. -/
def Obligations.HostPortsWriteOneThing : Prop :=
  ∀ (s : State), s.mem.wf = true →
    stackPeek s = s.peek (BitVec.ofNat 16 (0x0100 + (s.sp.toNat + 1) % 256)) ∧ stackPeek s = (pull s).1 ∧
    (∀ (addr other : Word) (v : Byte), (HostAction.perform (.writeMemory addr v) s) =
        { s with mem := (HostAction.perform (.writeMemory addr v) s).mem } ∧
      (HostAction.perform (.writeMemory addr v) s).peek other =
        if other = addr ∧ s.memPresent = true then v else s.peek other) ∧
    (∀ v, HostAction.perform (.writeA v) s = { s with a := v }) ∧
    (∀ v, HostAction.perform (.writeX v) s = { s with x := v }) ∧
    (∀ v, HostAction.perform (.writeY v) s = { s with y := v }) ∧
    (∀ v, HostAction.perform (.writeS v) s = { s with sp := v }) ∧
    (∀ v, HostAction.perform (.writeP v) s = { s with p := v }) ∧
    (∀ v, HostAction.perform (.writePc v) s = { s with pc := v }) ∧
    ∀ (f g : Flag) (v : Bool),
      (HostAction.perform (.writeFlag f v) s).flag g = (if g = f then v else s.flag g) ∧
      HostAction.perform (.writeFlag f v) s = { s with p := (HostAction.perform (.writeFlag f v) s).p }
end

