-- ==== Sys2Proof/Laws/Bits.lean ====
section
/-! SUPPORT. What the bit-field helpers of Machine/Bits.lean and the stack address give. -/

namespace Sys2Proof

theorem w16_toNat (h l : Byte) : (w16 h l).toNat = h.toNat * 256 + l.toNat := by
  have := h.isLt; have := l.isLt
  simp only [w16, BitVec.toNat_ofNat]; omega

theorem lo_toNat (w : Word) : (lo w).toNat = w.toNat % 256 := by simp [lo]

theorem hi_toNat (w : Word) : (hi w).toNat = w.toNat / 256 := by
  have := w.isLt
  simp only [hi, BitVec.toNat_ofNat]; omega

@[simp] theorem lo_w16 (h l : Byte) : lo (w16 h l) = l := by
  apply BitVec.eq_of_toNat_eq
  have := l.isLt
  rw [lo_toNat, w16_toNat]; omega

@[simp] theorem hi_w16 (h l : Byte) : hi (w16 h l) = h := by
  apply BitVec.eq_of_toNat_eq
  have := l.isLt
  rw [hi_toNat, w16_toNat]; omega

@[simp] theorem w16_hi_lo (w : Word) : w16 (hi w) (lo w) = w := by
  apply BitVec.eq_of_toNat_eq
  rw [w16_toNat, hi_toNat, lo_toNat]; omega

theorem zext16_toNat (v : Byte) : (zext16 v).toNat = v.toNat := by
  have := v.isLt
  simp only [zext16, BitVec.toNat_setWidth]; omega

theorem setBit_getLsbD (i j : Nat) (v : Bool) (p : Byte) (hi : i < 8) :
    (setBit i v p).getLsbD j = if j = i then v else p.getLsbD j := by
  by_cases hj : j < 8
  · have h1 : (1#8 <<< i).getLsbD j = decide (j = i) := by
      rw [BitVec.getLsbD_shiftLeft, BitVec.getLsbD_one]
      by_cases hji : j = i
      · subst hji; simp [hj]
      · simp only [hji, decide_false]
        by_cases hlt : j < i
        · simp [hlt]
        · have : ¬ (j - i = 0) := by omega
          simp [this]
    unfold setBit
    cases v
    · rw [if_neg (by simp)]
      simp only [BitVec.getLsbD_and, BitVec.getLsbD_not, h1, hj]
      by_cases hji : j = i <;> simp [hji]
    · rw [if_pos rfl]
      simp only [BitVec.getLsbD_or, h1]
      by_cases hji : j = i <;> simp [hji]
  · have : ¬ j = i := by omega
    simp [BitVec.getLsbD_of_ge _ _ (Nat.le_of_not_lt hj), this]

end Sys2Proof

namespace Sys2Proof.Machine

theorem stackAddr_toNat (sp : Byte) : (stackAddr sp).toNat = 256 + sp.toNat := by
  revert sp; decide

theorem stackAddr_inj {p q : Byte} : stackAddr p = stackAddr q ↔ p = q := by
  constructor
  · intro h
    have := congrArg BitVec.toNat h
    rw [stackAddr_toNat, stackAddr_toNat] at this
    exact BitVec.eq_of_toNat_eq (by omega)
  · rintro rfl; rfl

end Sys2Proof.Machine
end

