-- ==== Sys2Proof/Laws/State.lean ====
section
/-! SUPPORT. One lemma per field per named write, all by rfl, so that no proof unfolds a record update; then the same
for the reads of a register by name, a flag and a byte of memory. -/

namespace Sys2Proof.Machine.State

@[simp] theorem setA_a (v : Byte) (s : State) : (s.setA v).a = v := rfl
@[simp] theorem setA_x (v : Byte) (s : State) : (s.setA v).x = s.x := rfl
@[simp] theorem setA_y (v : Byte) (s : State) : (s.setA v).y = s.y := rfl
@[simp] theorem setA_sp (v : Byte) (s : State) : (s.setA v).sp = s.sp := rfl
@[simp] theorem setA_p (v : Byte) (s : State) : (s.setA v).p = s.p := rfl
@[simp] theorem setA_pc (v : Byte) (s : State) : (s.setA v).pc = s.pc := rfl
@[simp] theorem setA_cycles (v : Byte) (s : State) : (s.setA v).cycles = s.cycles := rfl
@[simp] theorem setA_mem (v : Byte) (s : State) : (s.setA v).mem = s.mem := rfl
@[simp] theorem setA_memPresent (v : Byte) (s : State) : (s.setA v).memPresent = s.memPresent := rfl
@[simp] theorem setA_faulted (v : Byte) (s : State) : (s.setA v).faulted = s.faulted := rfl
@[simp] theorem setA_trace (v : Byte) (s : State) : (s.setA v).trace = s.trace := rfl

@[simp] theorem setX_a (v : Byte) (s : State) : (s.setX v).a = s.a := rfl
@[simp] theorem setX_x (v : Byte) (s : State) : (s.setX v).x = v := rfl
@[simp] theorem setX_y (v : Byte) (s : State) : (s.setX v).y = s.y := rfl
@[simp] theorem setX_sp (v : Byte) (s : State) : (s.setX v).sp = s.sp := rfl
@[simp] theorem setX_p (v : Byte) (s : State) : (s.setX v).p = s.p := rfl
@[simp] theorem setX_pc (v : Byte) (s : State) : (s.setX v).pc = s.pc := rfl
@[simp] theorem setX_cycles (v : Byte) (s : State) : (s.setX v).cycles = s.cycles := rfl
@[simp] theorem setX_mem (v : Byte) (s : State) : (s.setX v).mem = s.mem := rfl
@[simp] theorem setX_memPresent (v : Byte) (s : State) : (s.setX v).memPresent = s.memPresent := rfl
@[simp] theorem setX_faulted (v : Byte) (s : State) : (s.setX v).faulted = s.faulted := rfl
@[simp] theorem setX_trace (v : Byte) (s : State) : (s.setX v).trace = s.trace := rfl

@[simp] theorem setY_a (v : Byte) (s : State) : (s.setY v).a = s.a := rfl
@[simp] theorem setY_x (v : Byte) (s : State) : (s.setY v).x = s.x := rfl
@[simp] theorem setY_y (v : Byte) (s : State) : (s.setY v).y = v := rfl
@[simp] theorem setY_sp (v : Byte) (s : State) : (s.setY v).sp = s.sp := rfl
@[simp] theorem setY_p (v : Byte) (s : State) : (s.setY v).p = s.p := rfl
@[simp] theorem setY_pc (v : Byte) (s : State) : (s.setY v).pc = s.pc := rfl
@[simp] theorem setY_cycles (v : Byte) (s : State) : (s.setY v).cycles = s.cycles := rfl
@[simp] theorem setY_mem (v : Byte) (s : State) : (s.setY v).mem = s.mem := rfl
@[simp] theorem setY_memPresent (v : Byte) (s : State) : (s.setY v).memPresent = s.memPresent := rfl
@[simp] theorem setY_faulted (v : Byte) (s : State) : (s.setY v).faulted = s.faulted := rfl
@[simp] theorem setY_trace (v : Byte) (s : State) : (s.setY v).trace = s.trace := rfl

@[simp] theorem setSp_a (v : Byte) (s : State) : (s.setSp v).a = s.a := rfl
@[simp] theorem setSp_x (v : Byte) (s : State) : (s.setSp v).x = s.x := rfl
@[simp] theorem setSp_y (v : Byte) (s : State) : (s.setSp v).y = s.y := rfl
@[simp] theorem setSp_sp (v : Byte) (s : State) : (s.setSp v).sp = v := rfl
@[simp] theorem setSp_p (v : Byte) (s : State) : (s.setSp v).p = s.p := rfl
@[simp] theorem setSp_pc (v : Byte) (s : State) : (s.setSp v).pc = s.pc := rfl
@[simp] theorem setSp_cycles (v : Byte) (s : State) : (s.setSp v).cycles = s.cycles := rfl
@[simp] theorem setSp_mem (v : Byte) (s : State) : (s.setSp v).mem = s.mem := rfl
@[simp] theorem setSp_memPresent (v : Byte) (s : State) : (s.setSp v).memPresent = s.memPresent := rfl
@[simp] theorem setSp_faulted (v : Byte) (s : State) : (s.setSp v).faulted = s.faulted := rfl
@[simp] theorem setSp_trace (v : Byte) (s : State) : (s.setSp v).trace = s.trace := rfl

@[simp] theorem setP_a (v : Byte) (s : State) : (s.setP v).a = s.a := rfl
@[simp] theorem setP_x (v : Byte) (s : State) : (s.setP v).x = s.x := rfl
@[simp] theorem setP_y (v : Byte) (s : State) : (s.setP v).y = s.y := rfl
@[simp] theorem setP_sp (v : Byte) (s : State) : (s.setP v).sp = s.sp := rfl
@[simp] theorem setP_p (v : Byte) (s : State) : (s.setP v).p = v := rfl
@[simp] theorem setP_pc (v : Byte) (s : State) : (s.setP v).pc = s.pc := rfl
@[simp] theorem setP_cycles (v : Byte) (s : State) : (s.setP v).cycles = s.cycles := rfl
@[simp] theorem setP_mem (v : Byte) (s : State) : (s.setP v).mem = s.mem := rfl
@[simp] theorem setP_memPresent (v : Byte) (s : State) : (s.setP v).memPresent = s.memPresent := rfl
@[simp] theorem setP_faulted (v : Byte) (s : State) : (s.setP v).faulted = s.faulted := rfl
@[simp] theorem setP_trace (v : Byte) (s : State) : (s.setP v).trace = s.trace := rfl

@[simp] theorem setPc_a (v : Word) (s : State) : (s.setPc v).a = s.a := rfl
@[simp] theorem setPc_x (v : Word) (s : State) : (s.setPc v).x = s.x := rfl
@[simp] theorem setPc_y (v : Word) (s : State) : (s.setPc v).y = s.y := rfl
@[simp] theorem setPc_sp (v : Word) (s : State) : (s.setPc v).sp = s.sp := rfl
@[simp] theorem setPc_p (v : Word) (s : State) : (s.setPc v).p = s.p := rfl
@[simp] theorem setPc_pc (v : Word) (s : State) : (s.setPc v).pc = v := rfl
@[simp] theorem setPc_cycles (v : Word) (s : State) : (s.setPc v).cycles = s.cycles := rfl
@[simp] theorem setPc_mem (v : Word) (s : State) : (s.setPc v).mem = s.mem := rfl
@[simp] theorem setPc_memPresent (v : Word) (s : State) : (s.setPc v).memPresent = s.memPresent := rfl
@[simp] theorem setPc_faulted (v : Word) (s : State) : (s.setPc v).faulted = s.faulted := rfl
@[simp] theorem setPc_trace (v : Word) (s : State) : (s.setPc v).trace = s.trace := rfl

@[simp] theorem setMem_a (m : Memory) (s : State) : (s.setMem m).a = s.a := rfl
@[simp] theorem setMem_x (m : Memory) (s : State) : (s.setMem m).x = s.x := rfl
@[simp] theorem setMem_y (m : Memory) (s : State) : (s.setMem m).y = s.y := rfl
@[simp] theorem setMem_sp (m : Memory) (s : State) : (s.setMem m).sp = s.sp := rfl
@[simp] theorem setMem_p (m : Memory) (s : State) : (s.setMem m).p = s.p := rfl
@[simp] theorem setMem_pc (m : Memory) (s : State) : (s.setMem m).pc = s.pc := rfl
@[simp] theorem setMem_cycles (m : Memory) (s : State) : (s.setMem m).cycles = s.cycles := rfl
@[simp] theorem setMem_mem (m : Memory) (s : State) : (s.setMem m).mem = m := rfl
@[simp] theorem setMem_memPresent (m : Memory) (s : State) : (s.setMem m).memPresent = s.memPresent := rfl
@[simp] theorem setMem_faulted (m : Memory) (s : State) : (s.setMem m).faulted = s.faulted := rfl
@[simp] theorem setMem_trace (m : Memory) (s : State) : (s.setMem m).trace = s.trace := rfl

@[simp] theorem setFaulted_a (r : Option (Byte × Word)) (s : State) : (s.setFaulted r).a = s.a := rfl
@[simp] theorem setFaulted_x (r : Option (Byte × Word)) (s : State) : (s.setFaulted r).x = s.x := rfl
@[simp] theorem setFaulted_y (r : Option (Byte × Word)) (s : State) : (s.setFaulted r).y = s.y := rfl
@[simp] theorem setFaulted_sp (r : Option (Byte × Word)) (s : State) : (s.setFaulted r).sp = s.sp := rfl
@[simp] theorem setFaulted_p (r : Option (Byte × Word)) (s : State) : (s.setFaulted r).p = s.p := rfl
@[simp] theorem setFaulted_pc (r : Option (Byte × Word)) (s : State) : (s.setFaulted r).pc = s.pc := rfl
@[simp] theorem setFaulted_cycles (r : Option (Byte × Word)) (s : State) : (s.setFaulted r).cycles = s.cycles := rfl
@[simp] theorem setFaulted_mem (r : Option (Byte × Word)) (s : State) : (s.setFaulted r).mem = s.mem := rfl
@[simp] theorem setFaulted_memPresent (r : Option (Byte × Word)) (s : State) : (s.setFaulted r).memPresent = s.memPresent := rfl
@[simp] theorem setFaulted_faulted (r : Option (Byte × Word)) (s : State) : (s.setFaulted r).faulted = r := rfl
@[simp] theorem setFaulted_trace (r : Option (Byte × Word)) (s : State) : (s.setFaulted r).trace = s.trace := rfl

@[simp] theorem event_a (e : BusEvent) (s : State) : (s.event e).a = s.a := rfl
@[simp] theorem event_x (e : BusEvent) (s : State) : (s.event e).x = s.x := rfl
@[simp] theorem event_y (e : BusEvent) (s : State) : (s.event e).y = s.y := rfl
@[simp] theorem event_sp (e : BusEvent) (s : State) : (s.event e).sp = s.sp := rfl
@[simp] theorem event_p (e : BusEvent) (s : State) : (s.event e).p = s.p := rfl
@[simp] theorem event_pc (e : BusEvent) (s : State) : (s.event e).pc = s.pc := rfl
@[simp] theorem event_cycles (e : BusEvent) (s : State) : (s.event e).cycles = s.cycles + 1 := rfl
@[simp] theorem event_mem (e : BusEvent) (s : State) : (s.event e).mem = s.mem := rfl
@[simp] theorem event_memPresent (e : BusEvent) (s : State) : (s.event e).memPresent = s.memPresent := rfl
@[simp] theorem event_faulted (e : BusEvent) (s : State) : (s.event e).faulted = s.faulted := rfl
@[simp] theorem event_trace (e : BusEvent) (s : State) : (s.event e).trace = s.trace ++ [e] := rfl

@[simp] theorem clearTrace_a (s : State) : (s.clearTrace).a = s.a := rfl
@[simp] theorem clearTrace_x (s : State) : (s.clearTrace).x = s.x := rfl
@[simp] theorem clearTrace_y (s : State) : (s.clearTrace).y = s.y := rfl
@[simp] theorem clearTrace_sp (s : State) : (s.clearTrace).sp = s.sp := rfl
@[simp] theorem clearTrace_p (s : State) : (s.clearTrace).p = s.p := rfl
@[simp] theorem clearTrace_pc (s : State) : (s.clearTrace).pc = s.pc := rfl
@[simp] theorem clearTrace_cycles (s : State) : (s.clearTrace).cycles = s.cycles := rfl
@[simp] theorem clearTrace_mem (s : State) : (s.clearTrace).mem = s.mem := rfl
@[simp] theorem clearTrace_memPresent (s : State) : (s.clearTrace).memPresent = s.memPresent := rfl
@[simp] theorem clearTrace_faulted (s : State) : (s.clearTrace).faulted = s.faulted := rfl
@[simp] theorem clearTrace_trace (s : State) : (s.clearTrace).trace = [] := rfl

@[simp] theorem emit_a (es : List BusEvent) (s : State) : (s.emit es).a = s.a := rfl
@[simp] theorem emit_x (es : List BusEvent) (s : State) : (s.emit es).x = s.x := rfl
@[simp] theorem emit_y (es : List BusEvent) (s : State) : (s.emit es).y = s.y := rfl
@[simp] theorem emit_sp (es : List BusEvent) (s : State) : (s.emit es).sp = s.sp := rfl
@[simp] theorem emit_p (es : List BusEvent) (s : State) : (s.emit es).p = s.p := rfl
@[simp] theorem emit_pc (es : List BusEvent) (s : State) : (s.emit es).pc = s.pc := rfl
@[simp] theorem emit_cycles (es : List BusEvent) (s : State) : (s.emit es).cycles = s.cycles + es.length := rfl
@[simp] theorem emit_mem (es : List BusEvent) (s : State) : (s.emit es).mem = s.mem := rfl
@[simp] theorem emit_memPresent (es : List BusEvent) (s : State) : (s.emit es).memPresent = s.memPresent := rfl
@[simp] theorem emit_faulted (es : List BusEvent) (s : State) : (s.emit es).faulted = s.faulted := rfl
@[simp] theorem emit_trace (es : List BusEvent) (s : State) : (s.emit es).trace = s.trace ++ es := rfl

@[simp] theorem setA_reg_a (v : Byte) (s : State) : (s.setA v).reg .a = v := rfl
@[simp] theorem setA_reg_x (v : Byte) (s : State) : (s.setA v).reg .x = s.reg .x := rfl
@[simp] theorem setA_reg_y (v : Byte) (s : State) : (s.setA v).reg .y = s.reg .y := rfl
@[simp] theorem setA_reg_s (v : Byte) (s : State) : (s.setA v).reg .s = s.reg .s := rfl
@[simp] theorem setA_flag (v : Byte) (f : Flag) (s : State) : (s.setA v).flag f = s.flag f := rfl
@[simp] theorem setA_peek (v : Byte) (addr : Word) (s : State) : (s.setA v).peek addr = s.peek addr := rfl

@[simp] theorem setX_reg_a (v : Byte) (s : State) : (s.setX v).reg .a = s.reg .a := rfl
@[simp] theorem setX_reg_x (v : Byte) (s : State) : (s.setX v).reg .x = v := rfl
@[simp] theorem setX_reg_y (v : Byte) (s : State) : (s.setX v).reg .y = s.reg .y := rfl
@[simp] theorem setX_reg_s (v : Byte) (s : State) : (s.setX v).reg .s = s.reg .s := rfl
@[simp] theorem setX_flag (v : Byte) (f : Flag) (s : State) : (s.setX v).flag f = s.flag f := rfl
@[simp] theorem setX_peek (v : Byte) (addr : Word) (s : State) : (s.setX v).peek addr = s.peek addr := rfl

@[simp] theorem setY_reg_a (v : Byte) (s : State) : (s.setY v).reg .a = s.reg .a := rfl
@[simp] theorem setY_reg_x (v : Byte) (s : State) : (s.setY v).reg .x = s.reg .x := rfl
@[simp] theorem setY_reg_y (v : Byte) (s : State) : (s.setY v).reg .y = v := rfl
@[simp] theorem setY_reg_s (v : Byte) (s : State) : (s.setY v).reg .s = s.reg .s := rfl
@[simp] theorem setY_flag (v : Byte) (f : Flag) (s : State) : (s.setY v).flag f = s.flag f := rfl
@[simp] theorem setY_peek (v : Byte) (addr : Word) (s : State) : (s.setY v).peek addr = s.peek addr := rfl

@[simp] theorem setSp_reg_a (v : Byte) (s : State) : (s.setSp v).reg .a = s.reg .a := rfl
@[simp] theorem setSp_reg_x (v : Byte) (s : State) : (s.setSp v).reg .x = s.reg .x := rfl
@[simp] theorem setSp_reg_y (v : Byte) (s : State) : (s.setSp v).reg .y = s.reg .y := rfl
@[simp] theorem setSp_reg_s (v : Byte) (s : State) : (s.setSp v).reg .s = v := rfl
@[simp] theorem setSp_flag (v : Byte) (f : Flag) (s : State) : (s.setSp v).flag f = s.flag f := rfl
@[simp] theorem setSp_peek (v : Byte) (addr : Word) (s : State) : (s.setSp v).peek addr = s.peek addr := rfl

@[simp] theorem setP_reg_a (v : Byte) (s : State) : (s.setP v).reg .a = s.reg .a := rfl
@[simp] theorem setP_reg_x (v : Byte) (s : State) : (s.setP v).reg .x = s.reg .x := rfl
@[simp] theorem setP_reg_y (v : Byte) (s : State) : (s.setP v).reg .y = s.reg .y := rfl
@[simp] theorem setP_reg_s (v : Byte) (s : State) : (s.setP v).reg .s = s.reg .s := rfl
@[simp] theorem setP_peek (v : Byte) (addr : Word) (s : State) : (s.setP v).peek addr = s.peek addr := rfl

@[simp] theorem setPc_reg_a (v : Word) (s : State) : (s.setPc v).reg .a = s.reg .a := rfl
@[simp] theorem setPc_reg_x (v : Word) (s : State) : (s.setPc v).reg .x = s.reg .x := rfl
@[simp] theorem setPc_reg_y (v : Word) (s : State) : (s.setPc v).reg .y = s.reg .y := rfl
@[simp] theorem setPc_reg_s (v : Word) (s : State) : (s.setPc v).reg .s = s.reg .s := rfl
@[simp] theorem setPc_flag (v : Word) (f : Flag) (s : State) : (s.setPc v).flag f = s.flag f := rfl
@[simp] theorem setPc_peek (v : Word) (addr : Word) (s : State) : (s.setPc v).peek addr = s.peek addr := rfl

@[simp] theorem setMem_reg_a (m : Memory) (s : State) : (s.setMem m).reg .a = s.reg .a := rfl
@[simp] theorem setMem_reg_x (m : Memory) (s : State) : (s.setMem m).reg .x = s.reg .x := rfl
@[simp] theorem setMem_reg_y (m : Memory) (s : State) : (s.setMem m).reg .y = s.reg .y := rfl
@[simp] theorem setMem_reg_s (m : Memory) (s : State) : (s.setMem m).reg .s = s.reg .s := rfl
@[simp] theorem setMem_flag (m : Memory) (f : Flag) (s : State) : (s.setMem m).flag f = s.flag f := rfl

@[simp] theorem setFaulted_reg_a (r : Option (Byte × Word)) (s : State) : (s.setFaulted r).reg .a = s.reg .a := rfl
@[simp] theorem setFaulted_reg_x (r : Option (Byte × Word)) (s : State) : (s.setFaulted r).reg .x = s.reg .x := rfl
@[simp] theorem setFaulted_reg_y (r : Option (Byte × Word)) (s : State) : (s.setFaulted r).reg .y = s.reg .y := rfl
@[simp] theorem setFaulted_reg_s (r : Option (Byte × Word)) (s : State) : (s.setFaulted r).reg .s = s.reg .s := rfl
@[simp] theorem setFaulted_flag (r : Option (Byte × Word)) (f : Flag) (s : State) : (s.setFaulted r).flag f = s.flag f := rfl
@[simp] theorem setFaulted_peek (r : Option (Byte × Word)) (addr : Word) (s : State) : (s.setFaulted r).peek addr = s.peek addr := rfl

@[simp] theorem event_reg_a (e : BusEvent) (s : State) : (s.event e).reg .a = s.reg .a := rfl
@[simp] theorem event_reg_x (e : BusEvent) (s : State) : (s.event e).reg .x = s.reg .x := rfl
@[simp] theorem event_reg_y (e : BusEvent) (s : State) : (s.event e).reg .y = s.reg .y := rfl
@[simp] theorem event_reg_s (e : BusEvent) (s : State) : (s.event e).reg .s = s.reg .s := rfl
@[simp] theorem event_flag (e : BusEvent) (f : Flag) (s : State) : (s.event e).flag f = s.flag f := rfl
@[simp] theorem event_peek (e : BusEvent) (addr : Word) (s : State) : (s.event e).peek addr = s.peek addr := rfl

@[simp] theorem clearTrace_reg_a (s : State) : (s.clearTrace).reg .a = s.reg .a := rfl
@[simp] theorem clearTrace_reg_x (s : State) : (s.clearTrace).reg .x = s.reg .x := rfl
@[simp] theorem clearTrace_reg_y (s : State) : (s.clearTrace).reg .y = s.reg .y := rfl
@[simp] theorem clearTrace_reg_s (s : State) : (s.clearTrace).reg .s = s.reg .s := rfl
@[simp] theorem clearTrace_flag (f : Flag) (s : State) : (s.clearTrace).flag f = s.flag f := rfl
@[simp] theorem clearTrace_peek (addr : Word) (s : State) : (s.clearTrace).peek addr = s.peek addr := rfl

@[simp] theorem emit_reg_a (es : List BusEvent) (s : State) : (s.emit es).reg .a = s.reg .a := rfl
@[simp] theorem emit_reg_x (es : List BusEvent) (s : State) : (s.emit es).reg .x = s.reg .x := rfl
@[simp] theorem emit_reg_y (es : List BusEvent) (s : State) : (s.emit es).reg .y = s.reg .y := rfl
@[simp] theorem emit_reg_s (es : List BusEvent) (s : State) : (s.emit es).reg .s = s.reg .s := rfl
@[simp] theorem emit_flag (es : List BusEvent) (f : Flag) (s : State) : (s.emit es).flag f = s.flag f := rfl
@[simp] theorem emit_peek (es : List BusEvent) (addr : Word) (s : State) : (s.emit es).peek addr = s.peek addr := rfl

theorem event_eq_emit (e : BusEvent) (s : State) : s.event e = s.emit [e] := rfl

@[simp] theorem emit_nil (s : State) : s.emit [] = s := by simp [emit]

@[simp] theorem emit_emit (es fs : List BusEvent) (s : State) : (s.emit es).emit fs = s.emit (es ++ fs) := by
  simp [emit, Nat.add_assoc]

theorem setPc_emit (v : Word) (es : List BusEvent) (s : State) : (s.setPc v).emit es = (s.emit es).setPc v := rfl

theorem setSp_emit (v : Byte) (es : List BusEvent) (s : State) : (s.setSp v).emit es = (s.emit es).setSp v := rfl

@[simp] theorem setPc_setPc (v w : Word) (s : State) : (s.setPc v).setPc w = s.setPc w := rfl

@[simp] theorem setSp_setSp (v w : Byte) (s : State) : (s.setSp v).setSp w = s.setSp w := rfl

theorem flag_eq (f : Flag) (s : State) : s.flag f = s.p.getLsbD f.bit := rfl

end Sys2Proof.Machine.State
end

