-- ==== Sys2Proof/Laws/Flags.lean ====
section
/-! SUPPORT. What each flag operation of Machine/Flags.lean writes, said once: the other fields by rfl, the flags one by
one. -/

namespace Sys2Proof.Machine

theorem Flag.bit_lt (f : Flag) : f.bit < 8 := by cases f <;> decide

theorem Flag.bit_inj {f g : Flag} : f.bit = g.bit ↔ f = g := by cases f <;> cases g <;> decide

namespace State

@[simp] theorem setFlag_a (f : Flag) (v : Bool) (s : State) : (s.setFlag f v).a = s.a := rfl
@[simp] theorem setFlag_x (f : Flag) (v : Bool) (s : State) : (s.setFlag f v).x = s.x := rfl
@[simp] theorem setFlag_y (f : Flag) (v : Bool) (s : State) : (s.setFlag f v).y = s.y := rfl
@[simp] theorem setFlag_sp (f : Flag) (v : Bool) (s : State) : (s.setFlag f v).sp = s.sp := rfl
@[simp] theorem setFlag_pc (f : Flag) (v : Bool) (s : State) : (s.setFlag f v).pc = s.pc := rfl
@[simp] theorem setFlag_cycles (f : Flag) (v : Bool) (s : State) : (s.setFlag f v).cycles = s.cycles := rfl
@[simp] theorem setFlag_mem (f : Flag) (v : Bool) (s : State) : (s.setFlag f v).mem = s.mem := rfl
@[simp] theorem setFlag_memPresent (f : Flag) (v : Bool) (s : State) : (s.setFlag f v).memPresent = s.memPresent := rfl
@[simp] theorem setFlag_faulted (f : Flag) (v : Bool) (s : State) : (s.setFlag f v).faulted = s.faulted := rfl
@[simp] theorem setFlag_trace (f : Flag) (v : Bool) (s : State) : (s.setFlag f v).trace = s.trace := rfl
@[simp] theorem setFlag_reg (f : Flag) (v : Bool) (r : Reg) (s : State) : (s.setFlag f v).reg r = s.reg r := by
  cases r <;> rfl
@[simp] theorem setFlag_peek (f : Flag) (v : Bool) (addr : Word) (s : State) : (s.setFlag f v).peek addr = s.peek addr := rfl

/-- A write of one flag changes only that bit of P (10_state.md R24). -/
theorem setFlag_flag (f g : Flag) (v : Bool) (s : State) :
    (s.setFlag f v).flag g = if g = f then v else s.flag g := by
  simp only [flag, setFlag, setP_p, setBit_getLsbD _ _ _ _ f.bit_lt, Flag.bit_inj]

@[simp] theorem setFlag_flag_same (f : Flag) (v : Bool) (s : State) : (s.setFlag f v).flag f = v := by
  rw [setFlag_flag, if_pos rfl]

theorem setFlag_flag_ne {f g : Flag} (h : g ≠ f) (v : Bool) (s : State) : (s.setFlag f v).flag g = s.flag g := by
  rw [setFlag_flag, if_neg h]

/-- P is its eight flags. -/
theorem p_ext {s t : State} (h : ∀ f, s.flag f = t.flag f) : s.p = t.p := by
  apply BitVec.eq_of_getLsbD_eq
  intro i hi
  obtain ⟨f, rfl⟩ : ∃ f : Flag, f.bit = i := by
    interval_cases i
    exacts [⟨.c, rfl⟩, ⟨.z, rfl⟩, ⟨.i, rfl⟩, ⟨.d, rfl⟩, ⟨.b, rfl⟩, ⟨.u, rfl⟩, ⟨.v, rfl⟩, ⟨.n, rfl⟩]
  exact h f

/-- Writes of different flags commute. -/
theorem setFlag_comm {f g : Flag} (h : f ≠ g) (v w : Bool) (s : State) :
    (s.setFlag f v).setFlag g w = (s.setFlag g w).setFlag f v := by
  have hp : ((s.setFlag f v).setFlag g w).p = ((s.setFlag g w).setFlag f v).p := by
    apply p_ext
    intro k
    simp only [setFlag_flag]
    by_cases h1 : k = f <;> by_cases h2 : k = g <;> simp_all
  exact congrArg (fun p => s.setP p) hp

end State

@[simp] theorem setNZ_a (v : Byte) (s : State) : (setNZ v s).a = s.a := rfl
@[simp] theorem setNZ_x (v : Byte) (s : State) : (setNZ v s).x = s.x := rfl
@[simp] theorem setNZ_y (v : Byte) (s : State) : (setNZ v s).y = s.y := rfl
@[simp] theorem setNZ_sp (v : Byte) (s : State) : (setNZ v s).sp = s.sp := rfl
@[simp] theorem setNZ_pc (v : Byte) (s : State) : (setNZ v s).pc = s.pc := rfl
@[simp] theorem setNZ_cycles (v : Byte) (s : State) : (setNZ v s).cycles = s.cycles := rfl
@[simp] theorem setNZ_mem (v : Byte) (s : State) : (setNZ v s).mem = s.mem := rfl
@[simp] theorem setNZ_memPresent (v : Byte) (s : State) : (setNZ v s).memPresent = s.memPresent := rfl
@[simp] theorem setNZ_faulted (v : Byte) (s : State) : (setNZ v s).faulted = s.faulted := rfl
@[simp] theorem setNZ_trace (v : Byte) (s : State) : (setNZ v s).trace = s.trace := rfl
@[simp] theorem setNZ_reg (v : Byte) (r : Reg) (s : State) : (setNZ v s).reg r = s.reg r := by cases r <;> rfl
@[simp] theorem setNZ_peek (v : Byte) (addr : Word) (s : State) : (setNZ v s).peek addr = s.peek addr := rfl

/-- `setNZ` writes N and Z and no other bit (40_sequencer_addressing.md R106). -/
theorem setNZ_flag (v : Byte) (f : Flag) (s : State) :
    (setNZ v s).flag f = if f = .z then v == 0#8 else if f = .n then v.msb else s.flag f := by
  simp only [setNZ, State.setFlag_flag]

@[simp] theorem setNZ_flag_n (v : Byte) (s : State) : (setNZ v s).flag .n = v.msb := by simp [setNZ_flag]
@[simp] theorem setNZ_flag_z (v : Byte) (s : State) : (setNZ v s).flag .z = (v == 0#8) := by simp [setNZ_flag]

theorem setNZ_flag_other {f : Flag} (v : Byte) (s : State) (hn : f ≠ .n) (hz : f ≠ .z) :
    (setNZ v s).flag f = s.flag f := by simp [setNZ_flag, hn, hz]

theorem msb_eq_ge (v : Byte) : v.msb = decide (v.toNat ≥ 128) := by
  rw [BitVec.msb_eq_decide]

theorem beq_zero_eq (v : Byte) : (v == 0#8) = decide (v.toNat = 0) := by
  by_cases h : v = 0#8
  · subst h; rfl
  · have : v.toNat ≠ 0 := fun h0 => h (BitVec.eq_of_toNat_eq (by simpa using h0))
    simp [h, this]

/-- A state whose N and Z are those `setNZ` writes has N and Z from the value. -/
theorem NZFrom_of_flags {v : Byte} {t : State} (hn : t.flag .n = v.msb) (hz : t.flag .z = (v == 0#8)) : NZFrom v t :=
  ⟨hn.trans (msb_eq_ge v), hz.trans (beq_zero_eq v)⟩

theorem setNZ_NZFrom (v : Byte) (s : State) : NZFrom v (setNZ v s) :=
  NZFrom_of_flags (setNZ_flag_n v s) (setNZ_flag_z v s)

@[simp] theorem addWithCarry_x (m : Byte) (s : State) : (addWithCarry m s).x = s.x := rfl
@[simp] theorem addWithCarry_y (m : Byte) (s : State) : (addWithCarry m s).y = s.y := rfl
@[simp] theorem addWithCarry_sp (m : Byte) (s : State) : (addWithCarry m s).sp = s.sp := rfl
@[simp] theorem addWithCarry_pc (m : Byte) (s : State) : (addWithCarry m s).pc = s.pc := rfl
@[simp] theorem addWithCarry_cycles (m : Byte) (s : State) : (addWithCarry m s).cycles = s.cycles := rfl
@[simp] theorem addWithCarry_mem (m : Byte) (s : State) : (addWithCarry m s).mem = s.mem := rfl
@[simp] theorem addWithCarry_memPresent (m : Byte) (s : State) : (addWithCarry m s).memPresent = s.memPresent := rfl
@[simp] theorem addWithCarry_faulted (m : Byte) (s : State) : (addWithCarry m s).faulted = s.faulted := rfl
@[simp] theorem addWithCarry_trace (m : Byte) (s : State) : (addWithCarry m s).trace = s.trace := rfl
@[simp] theorem addWithCarry_peek (m : Byte) (addr : Word) (s : State) : (addWithCarry m s).peek addr = s.peek addr := rfl

/-- The byte the adder leaves in A (42_alu.md R133). -/
@[simp] theorem addWithCarry_a (m : Byte) (s : State) :
    (addWithCarry m s).a = BitVec.ofNat 8 (adcSum s.a m (s.flag .c)) := rfl

/-- The flags the adder leaves (R133): C, V, N and Z, no other. -/
theorem addWithCarry_flag (m : Byte) (f : Flag) (s : State) :
    (addWithCarry m s).flag f =
      if f = .z then BitVec.ofNat 8 (adcSum s.a m (s.flag .c)) == 0#8
      else if f = .n then (BitVec.ofNat 8 (adcSum s.a m (s.flag .c))).msb
      else if f = .v then
        ((s.a ^^^ BitVec.ofNat 8 (adcSum s.a m (s.flag .c))) &&& (m ^^^ BitVec.ofNat 8 (adcSum s.a m (s.flag .c))) &&&
          0x80#8) != 0#8
      else if f = .c then decide (adcSum s.a m (s.flag .c) > 255)
      else s.flag f := by
  simp only [addWithCarry, State.setA_flag, setNZ_flag, State.setFlag_flag]

@[simp] theorem compare_a (k : CmpCarry) (r m : Byte) (s : State) : (compare k r m s).a = s.a := rfl
@[simp] theorem compare_x (k : CmpCarry) (r m : Byte) (s : State) : (compare k r m s).x = s.x := rfl
@[simp] theorem compare_y (k : CmpCarry) (r m : Byte) (s : State) : (compare k r m s).y = s.y := rfl
@[simp] theorem compare_sp (k : CmpCarry) (r m : Byte) (s : State) : (compare k r m s).sp = s.sp := rfl
@[simp] theorem compare_pc (k : CmpCarry) (r m : Byte) (s : State) : (compare k r m s).pc = s.pc := rfl
@[simp] theorem compare_cycles (k : CmpCarry) (r m : Byte) (s : State) : (compare k r m s).cycles = s.cycles := rfl
@[simp] theorem compare_mem (k : CmpCarry) (r m : Byte) (s : State) : (compare k r m s).mem = s.mem := rfl
@[simp] theorem compare_memPresent (k : CmpCarry) (r m : Byte) (s : State) : (compare k r m s).memPresent = s.memPresent := rfl
@[simp] theorem compare_faulted (k : CmpCarry) (r m : Byte) (s : State) : (compare k r m s).faulted = s.faulted := rfl
@[simp] theorem compare_trace (k : CmpCarry) (r m : Byte) (s : State) : (compare k r m s).trace = s.trace := rfl
@[simp] theorem compare_reg (k : CmpCarry) (r m : Byte) (q : Reg) (s : State) : (compare k r m s).reg q = s.reg q := by
  cases q <;> rfl
@[simp] theorem compare_peek (k : CmpCarry) (r m : Byte) (addr : Word) (s : State) :
    (compare k r m s).peek addr = s.peek addr := rfl

/-- The flags a compare leaves (42_alu.md R138): C by its rule, N and Z from the difference. -/
theorem compare_flag (k : CmpCarry) (r m : Byte) (f : Flag) (s : State) :
    (compare k r m s).flag f =
      if f = .z then (r - m) == 0#8
      else if f = .n then (r - m).msb
      else if f = .c then compareCarry k r m
      else s.flag f := by
  simp only [compare, setNZ_flag, State.setFlag_flag]

@[simp] theorem bitTest_a (m : Byte) (s : State) : (bitTest m s).a = s.a := rfl
@[simp] theorem bitTest_x (m : Byte) (s : State) : (bitTest m s).x = s.x := rfl
@[simp] theorem bitTest_y (m : Byte) (s : State) : (bitTest m s).y = s.y := rfl
@[simp] theorem bitTest_sp (m : Byte) (s : State) : (bitTest m s).sp = s.sp := rfl
@[simp] theorem bitTest_pc (m : Byte) (s : State) : (bitTest m s).pc = s.pc := rfl
@[simp] theorem bitTest_cycles (m : Byte) (s : State) : (bitTest m s).cycles = s.cycles := rfl
@[simp] theorem bitTest_mem (m : Byte) (s : State) : (bitTest m s).mem = s.mem := rfl
@[simp] theorem bitTest_memPresent (m : Byte) (s : State) : (bitTest m s).memPresent = s.memPresent := rfl
@[simp] theorem bitTest_faulted (m : Byte) (s : State) : (bitTest m s).faulted = s.faulted := rfl
@[simp] theorem bitTest_trace (m : Byte) (s : State) : (bitTest m s).trace = s.trace := rfl
@[simp] theorem bitTest_reg (m : Byte) (q : Reg) (s : State) : (bitTest m s).reg q = s.reg q := by cases q <;> rfl
@[simp] theorem bitTest_peek (m : Byte) (addr : Word) (s : State) : (bitTest m s).peek addr = s.peek addr := rfl

/-- The flags BIT leaves (43_incdec_shift_bit.md R160). -/
theorem bitTest_flag (m : Byte) (f : Flag) (s : State) :
    (bitTest m s).flag f =
      if f = .v then m.getLsbD 6 else if f = .n then m.getLsbD 7 else if f = .z then (s.a &&& m) == 0#8 else s.flag f := by
  simp only [bitTest, State.setFlag_flag]

/-- What a read-modify-write computation may do to the state: flags only (R150 to R159). -/
def FlagsOnly (f : Byte → State → Byte × State) : Prop :=
  ∀ old s, ∃ p, (f old s).2 = s.setP p

theorem setFlag_eq_setP (f : Flag) (v : Bool) (s : State) : s.setFlag f v = s.setP (setBit f.bit v s.p) := rfl

theorem setNZ_setP (v p : Byte) (s : State) : ∃ q, setNZ v (s.setP p) = s.setP q := ⟨_, rfl⟩

theorem shiftLeft_flagsOnly : FlagsOnly shiftLeft := fun _ _ => ⟨_, rfl⟩
theorem shiftRight_flagsOnly : FlagsOnly shiftRight := fun _ _ => ⟨_, rfl⟩
theorem rotateLeft_flagsOnly : FlagsOnly rotateLeft := fun _ _ => ⟨_, rfl⟩
theorem rotateRight_flagsOnly : FlagsOnly rotateRight := fun _ _ => ⟨_, rfl⟩
theorem increment_flagsOnly : FlagsOnly increment := fun _ _ => ⟨_, rfl⟩
theorem decrement_flagsOnly : FlagsOnly decrement := fun _ _ => ⟨_, rfl⟩

end Sys2Proof.Machine
end

