-- ==== Sys2Proof/Laws/Memory.lean ====
section
/-! SUPPORT. The laws of memory: every operation keeps the canonical form, a read after a write to the same address
gives the value written, a write leaves every other address alone, and equal reads are equal memories. -/

namespace Sys2Proof.Machine.Memory

theorem wfFrom_cons {low k : Nat} {v : Byte} {m : Memory} :
    wfFrom low ((k, v) :: m) = true ↔ low ≤ k ∧ k < 65536 ∧ v ≠ unlisted ∧ wfFrom (k + 1) m = true := by
  simp [wfFrom, and_assoc]

theorem wfFrom_mono {low low' : Nat} {m : Memory} (h : wfFrom low m = true) (hle : low' ≤ low) :
    wfFrom low' m = true := by
  cases m with
  | nil => rfl
  | cons e m =>
    obtain ⟨k, v⟩ := e
    rw [wfFrom_cons] at h ⊢
    exact ⟨by omega, h.2⟩

theorem write_wfFrom {low addr : Nat} {v : Byte} {m : Memory} (h : wfFrom low m = true) (hlow : low ≤ addr)
    (haddr : addr < 65536) : wfFrom low (write m addr v) = true := by
  induction m generalizing low with
  | nil =>
    simp only [write]
    split
    · rfl
    · next hv => exact wfFrom_cons.2 ⟨hlow, haddr, hv, rfl⟩
  | cons e m ih =>
    obtain ⟨k, w⟩ := e
    obtain ⟨h1, h2, h3, h4⟩ := wfFrom_cons.1 h
    simp only [write]
    split_ifs with hlt hv heq hv
    · exact h
    · exact wfFrom_cons.2 ⟨hlow, haddr, hv, wfFrom_cons.2 ⟨by omega, h2, h3, h4⟩⟩
    · exact wfFrom_mono h4 (by omega)
    · exact wfFrom_cons.2 ⟨hlow, haddr, hv, heq ▸ h4⟩
    · exact wfFrom_cons.2 ⟨h1, h2, h3, ih h4 (by omega)⟩

/-- A write keeps the canonical form. -/
theorem write_wf {addr : Nat} {v : Byte} {m : Memory} (h : wf m = true) (haddr : addr < 65536) :
    wf (write m addr v) = true := write_wfFrom h (Nat.zero_le _) haddr

theorem storeBytes_wf {m : Memory} {addr : Word} {vs : List Byte} (h : wf m = true) :
    wf (storeBytes m addr vs) = true := by
  induction vs generalizing m addr with
  | nil => exact h
  | cons v vs ih => exact ih (write_wf h addr.isLt)

theorem read_below {low addr : Nat} {m : Memory} (h : wfFrom low m = true) (hlt : addr < low) :
    read m addr = unlisted := by
  induction m generalizing low with
  | nil => rfl
  | cons e m ih =>
    obtain ⟨k, w⟩ := e
    obtain ⟨h1, _, _, h4⟩ := wfFrom_cons.1 h
    rw [read, if_neg (by omega)]
    exact ih h4 (by omega)

theorem read_write_other {addr other : Nat} (v : Byte) (m : Memory) (h : other ≠ addr) :
    read (write m addr v) other = read m other := by
  induction m with
  | nil => simp only [write]; split <;> simp [read, Ne.symm h]
  | cons e m ih =>
    obtain ⟨k, w⟩ := e
    simp only [write]
    split_ifs with hlt hv heq hv
    · rfl
    · simp [read, Ne.symm h]
    · subst heq; simp [read, Ne.symm h]
    · subst heq; simp [read, Ne.symm h]
    · simp only [read, ih]

theorem read_write_same_from {low addr : Nat} (v : Byte) {m : Memory} (h : wfFrom low m = true) :
    read (write m addr v) addr = v := by
  induction m generalizing low with
  | nil => simp only [write]; split <;> simp_all [read]
  | cons e m ih =>
    obtain ⟨k, w⟩ := e
    obtain ⟨h1, h2, h3, h4⟩ := wfFrom_cons.1 h
    simp only [write]
    split_ifs with hlt hv heq hv
    · rw [hv, read, if_neg (by omega)]
      exact read_below h4 (by omega)
    · simp [read]
    · rw [hv]; exact read_below h4 (by omega)
    · simp [read]
    · rw [read, if_neg (by omega)]; exact ih h4

/-- A read of the address just written gives the value written. -/
theorem read_write_same {addr : Nat} (v : Byte) {m : Memory} (h : wf m = true) :
    read (write m addr v) addr = v := read_write_same_from v h

/-- The canonical form is canonical: memories that read alike are the same list. -/
theorem eq_of_read_eq {low : Nat} {m n : Memory} (hm : wfFrom low m = true) (hn : wfFrom low n = true)
    (h : ∀ addr, read m addr = read n addr) : m = n := by
  induction m generalizing low n with
  | nil =>
    cases n with
    | nil => rfl
    | cons e n =>
      obtain ⟨k, w⟩ := e
      have := h k
      simp only [read, if_pos] at this
      exact absurd this.symm (wfFrom_cons.1 hn).2.2.1
  | cons e m ih =>
    obtain ⟨k, w⟩ := e
    obtain ⟨a1, _, a3, a4⟩ := wfFrom_cons.1 hm
    cases n with
    | nil =>
      have := h k
      simp only [read, if_pos] at this
      exact absurd this a3
    | cons e n =>
      obtain ⟨j, u⟩ := e
      obtain ⟨b1, _, b3, b4⟩ := wfFrom_cons.1 hn
      have hkj : k = j := by
        rcases Nat.lt_trichotomy k j with hlt | heq | hgt
        · have := h k
          rw [read, if_pos rfl, read, if_neg (by omega), read_below b4 (by omega)] at this
          exact absurd this a3
        · exact heq
        · have := h j
          rw [read, if_neg (by omega), read_below a4 (by omega), read, if_pos rfl] at this
          exact absurd this.symm b3
      subst hkj
      have hwu : w = u := by simpa [read] using h k
      subst hwu
      congr 1
      refine ih a4 b4 fun addr => ?_
      by_cases hk : k = addr
      · subst hk; rw [read_below a4 (by omega), read_below b4 (by omega)]
      · simpa [read, hk] using h addr

end Sys2Proof.Machine.Memory
end

