-- ==== Sys2Proof/Laws/Ops.lean ====
section
/-! SUPPORT. What each shared operation of the bus, the stack, the trap and the addressing modes does, said once: the
value it gives and the state it leaves, as bus events and named writes. -/

namespace Sys2Proof.Machine

/-! ## The bus -/

theorem memRead_eq (addr : Word) (s : State) :
    memRead addr s = (s.peek addr, s.emit [.read addr (s.peek addr)]) := rfl

theorem dead_eq (s : State) : dead s = s.emit [.dead] := rfl

theorem fetchByte_eq (s : State) :
    fetchByte s = (s.peek s.pc, (s.emit [.read s.pc (s.peek s.pc)]).setPc (s.pc + 1#16)) := rfl

theorem peek_absent {s : State} (h : s.memPresent = false) (addr : Word) : s.peek addr = 0x00#8 := by
  simp [State.peek, h]

/-- The state a write leaves: the events and, where Memory is present, its contents. -/
theorem memWrite_eq (addr : Word) (v : Byte) (s : State) :
    memWrite addr v s =
      (if s.memPresent then s.setMem (s.mem.write addr.toNat v) else s).emit [.write addr v] := rfl

theorem memWrite_absent {s : State} (h : s.memPresent = false) (addr : Word) (v : Byte) :
    memWrite addr v s = s.emit [.write addr v] := by simp [memWrite_eq, h]

section fields
variable (addr : Word) (v : Byte) (s : State)
@[simp] theorem memWrite_a : (memWrite addr v s).a = s.a := by unfold memWrite; split <;> rfl
@[simp] theorem memWrite_x : (memWrite addr v s).x = s.x := by unfold memWrite; split <;> rfl
@[simp] theorem memWrite_y : (memWrite addr v s).y = s.y := by unfold memWrite; split <;> rfl
@[simp] theorem memWrite_sp : (memWrite addr v s).sp = s.sp := by unfold memWrite; split <;> rfl
@[simp] theorem memWrite_p : (memWrite addr v s).p = s.p := by unfold memWrite; split <;> rfl
@[simp] theorem memWrite_pc : (memWrite addr v s).pc = s.pc := by unfold memWrite; split <;> rfl
@[simp] theorem memWrite_cycles : (memWrite addr v s).cycles = s.cycles + 1 := by unfold memWrite; split <;> rfl
@[simp] theorem memWrite_memPresent : (memWrite addr v s).memPresent = s.memPresent := by unfold memWrite; split <;> rfl
@[simp] theorem memWrite_faulted : (memWrite addr v s).faulted = s.faulted := by unfold memWrite; split <;> rfl
@[simp] theorem memWrite_trace : (memWrite addr v s).trace = s.trace ++ [.write addr v] := by
  unfold memWrite; split <;> rfl
@[simp] theorem memWrite_reg (r : Reg) : (memWrite addr v s).reg r = s.reg r := by cases r <;> simp [State.reg]
@[simp] theorem memWrite_flag (f : Flag) : (memWrite addr v s).flag f = s.flag f := by simp [State.flag]
theorem memWrite_mem :
    (memWrite addr v s).mem = if s.memPresent then s.mem.write addr.toNat v else s.mem := by
  unfold memWrite; split <;> rfl
end fields

theorem memWrite_wf {addr : Word} {v : Byte} {s : State} (h : s.mem.wf = true) : (memWrite addr v s).mem.wf = true := by
  rw [memWrite_mem]; split
  · exact Memory.write_wf h addr.isLt
  · exact h

/-- Every address but the one written reads as before (20_memory.md R43). -/
theorem memWrite_peek_other {addr other : Word} (v : Byte) (s : State) (h : other ≠ addr) :
    (memWrite addr v s).peek other = s.peek other := by
  have hn : other.toNat ≠ addr.toNat := fun e => h (BitVec.eq_of_toNat_eq e)
  simp only [State.peek, memWrite_memPresent, memWrite_mem]
  split <;> simp [*, Memory.read_write_other]

/-- The address written reads as the value written, or as 0x00 where Memory is absent (R43, R44). -/
theorem memWrite_peek_same (addr : Word) (v : Byte) {s : State} (h : s.mem.wf = true) :
    (memWrite addr v s).peek addr = if s.memPresent then v else 0x00#8 := by
  simp only [State.peek, memWrite_memPresent, memWrite_mem]
  split <;> simp [*, Memory.read_write_same]

/-! ## The stack -/

section push
variable (v : Byte) (s : State)
@[simp] theorem push_a : (push v s).a = s.a := by simp [push]
@[simp] theorem push_x : (push v s).x = s.x := by simp [push]
@[simp] theorem push_y : (push v s).y = s.y := by simp [push]
@[simp] theorem push_sp : (push v s).sp = s.sp - 1#8 := by simp [push]
@[simp] theorem push_p : (push v s).p = s.p := by simp [push]
@[simp] theorem push_pc : (push v s).pc = s.pc := by simp [push]
@[simp] theorem push_cycles : (push v s).cycles = s.cycles + 1 := by simp [push]
@[simp] theorem push_memPresent : (push v s).memPresent = s.memPresent := by simp [push]
@[simp] theorem push_faulted : (push v s).faulted = s.faulted := by simp [push]
@[simp] theorem push_trace : (push v s).trace = s.trace ++ [.write (stackAddr s.sp) v] := by simp [push]
@[simp] theorem push_flag (f : Flag) : (push v s).flag f = s.flag f := by simp [push]
end push

theorem push_wf {v : Byte} {s : State} (h : s.mem.wf = true) : (push v s).mem.wf = true := memWrite_wf h

theorem push_peek_other {v : Byte} {s : State} {addr : Word} (h : addr ≠ stackAddr s.sp) :
    (push v s).peek addr = s.peek addr := memWrite_peek_other v s h

theorem push_peek_same (v : Byte) {s : State} (h : s.mem.wf = true) :
    (push v s).peek (stackAddr s.sp) = if s.memPresent then v else 0x00#8 := memWrite_peek_same _ v h

/-- The byte a pull gives and the state it leaves (20_memory.md R49). -/
theorem pull_eq (s : State) :
    pull s = (s.peek (stackAddr (s.sp + 1#8)),
      (s.setSp (s.sp + 1#8)).emit [.read (stackAddr (s.sp + 1#8)) (s.peek (stackAddr (s.sp + 1#8)))]) := rfl

/-- A return address pulled: the low byte at the lower stack address. -/
theorem pullWord_eq (s : State) :
    pullWord s = (w16 (s.peek (stackAddr (s.sp + 1#8 + 1#8))) (s.peek (stackAddr (s.sp + 1#8))),
      (s.setSp (s.sp + 1#8 + 1#8)).emit
        [.read (stackAddr (s.sp + 1#8)) (s.peek (stackAddr (s.sp + 1#8))),
         .read (stackAddr (s.sp + 1#8 + 1#8)) (s.peek (stackAddr (s.sp + 1#8 + 1#8)))]) := by
  simp [pullWord, pull_eq, State.emit, State.setSp, State.peek]

/-- The word at a vector and the two reads. -/
theorem readVector_eq (v : Word) (s : State) :
    readVector v s = (w16 (s.peek (v + 1#16)) (s.peek v),
      s.emit [.read v (s.peek v), .read (v + 1#16) (s.peek (v + 1#16))]) := by
  simp [readVector, memRead_eq]

/-! ## Addressing modes and operand access -/

theorem readZpPointer_eq (p : Byte) (s : State) :
    readZpPointer p s = (zpPointer p s, s.emit (pointerEvents p s)) := by
  simp [readZpPointer, memRead_eq, zpPointer, pointerEvents]

@[simp] theorem emit_zpPointer (d : Byte) (es : List BusEvent) (s : State) : zpPointer d (s.emit es) = zpPointer d s := rfl

@[simp] theorem emit_pointerEvents (d : Byte) (es : List BusEvent) (s : State) :
    pointerEvents d (s.emit es) = pointerEvents d s := rfl

theorem indexFixup_eq (base ea : Word) (cls : AccessClass) (s : State) :
    indexFixup base ea cls s = s.emit
      (match cls with
        | .r => if crossed base ea then [oopsEvent (uncorrected base ea) s] else []
        | .w => [.read (uncorrected base ea) (s.peek (uncorrected base ea))]
        | .m => [.read (uncorrected base ea) (s.peek (uncorrected base ea))]) := by
  cases cls
  · simp only [indexFixup]; split <;> simp [oopsCycle, oopsEvent, State.event_eq_emit]
  · rfl
  · rfl

/-- `Resolve` in full: the effective address, and nothing but the bus events of the mode. -/
theorem resolve_eq (m : MemMode) (cls : AccessClass) (s : State) :
    resolve m cls s = (effectiveAddress m s, s.emit (addressEvents cls m s)) := by
  cases m with
  | zp d => simp [resolve, resolveZp, effectiveAddress, addressEvents]
  | zpx d => rfl
  | zpy d => rfl
  | abs w => simp [resolve, resolveAbs, effectiveAddress, addressEvents]
  | absx w =>
    cases cls <;> simp [resolve, resolveAbsx, effectiveAddress, addressEvents, indexFixup_eq, fixupEvents,
      pageCrossed, uncorrectedAddress]
    rfl
  | absy w =>
    cases cls <;> simp [resolve, resolveAbsy, effectiveAddress, addressEvents, indexFixup_eq, fixupEvents,
      pageCrossed, uncorrectedAddress]
    rfl
  | indx d => simp [resolve, resolveIndx, effectiveAddress, addressEvents, readZpPointer_eq, dead_eq]
  | indy d =>
    cases cls <;> simp [resolve, resolveIndy, effectiveAddress, addressEvents, indexFixup_eq, fixupEvents,
      pageCrossed, uncorrectedAddress, readZpPointer_eq, oopsEvent]
    rfl

/-- JMP's Indirect mode in full (40_sequencer_addressing.md R94). -/
theorem resolveInd_eq (ptr : Word) (s : State) :
    resolveInd ptr s = (w16 (s.peek (w16 (hi ptr) (lo ptr + 1#8))) (s.peek ptr),
      s.emit [.read ptr (s.peek ptr),
        .read (w16 (hi ptr) (lo ptr + 1#8)) (s.peek (w16 (hi ptr) (lo ptr + 1#8)))]) := by
  simp [resolveInd, memRead_eq]

/-- Class R in full: the operation on the byte at the effective address, after the events of R105. -/
theorem readWith_eq (f : Byte → State → State) (m : MemMode) (s : State) :
    readWith f m s = f (s.peek (effectiveAddress m s))
      (s.emit (addressEvents .r m s ++ [.read (effectiveAddress m s) (s.peek (effectiveAddress m s))])) := by
  simp [readWith, resolve_eq, memRead_eq]

/-- Class W in full. -/
theorem storeTo_eq (v : Byte) (m : MemMode) (s : State) :
    storeTo v m s = memWrite (effectiveAddress m s) v (s.emit (addressEvents .w m s)) := by
  simp [storeTo, resolve_eq]

/-- Class M in full: `f` sees the old byte and the state after the read and the dead cycle. -/
theorem modifyMemory_eq (f : Byte → State → Byte × State) (m : MemMode) (s : State) :
    modifyMemory f m s =
      (let r := f (s.peek (effectiveAddress m s))
        (s.emit (addressEvents .m m s ++
          [.read (effectiveAddress m s) (s.peek (effectiveAddress m s)), .dead]))
       memWrite (effectiveAddress m s) r.1 r.2) := by
  simp [modifyMemory, resolve_eq, memRead_eq, dead_eq]

/-- A branch in full (45_control.md R200). -/
theorem branch_eq (f : Flag) (value : Bool) (d : Byte) (s : State) :
    branch f value d s =
      if s.flag f = value then
        (s.emit (if crossed s.pc (s.pc + sext16 d) then [.dead, .dead] else [.dead])).setPc (s.pc + sext16 d)
      else s := by
  simp only [branch, dead_eq]
  split
  · split <;> simp
  · rfl

/-! ## A word on the stack -/

theorem stackAddr_ne {p q : Byte} (h : p ≠ q) : stackAddr p ≠ stackAddr q := fun e => h (stackAddr_inj.1 e)

theorem byte_ne_pred (p : Byte) : p ≠ p - 1#8 := by revert p; decide

theorem byte_ne_pred2 (p : Byte) : p ≠ p - 2#8 := by revert p; decide

section pushWord
variable (w : Word) (s : State)
@[simp] theorem pushWord_a : (pushWord w s).a = s.a := by simp [pushWord]
@[simp] theorem pushWord_x : (pushWord w s).x = s.x := by simp [pushWord]
@[simp] theorem pushWord_y : (pushWord w s).y = s.y := by simp [pushWord]
@[simp] theorem pushWord_sp : (pushWord w s).sp = s.sp - 2#8 := by simp [pushWord, BitVec.sub_sub]
@[simp] theorem pushWord_p : (pushWord w s).p = s.p := by simp [pushWord]
@[simp] theorem pushWord_pc : (pushWord w s).pc = s.pc := by simp [pushWord]
@[simp] theorem pushWord_cycles : (pushWord w s).cycles = s.cycles + 2 := by simp [pushWord]
@[simp] theorem pushWord_memPresent : (pushWord w s).memPresent = s.memPresent := by simp [pushWord]
@[simp] theorem pushWord_faulted : (pushWord w s).faulted = s.faulted := by simp [pushWord]
@[simp] theorem pushWord_trace : (pushWord w s).trace =
    s.trace ++ [.write (stackAddr s.sp) (hi w), .write (stackAddr (s.sp - 1#8)) (lo w)] := by simp [pushWord]
@[simp] theorem pushWord_flag (f : Flag) : (pushWord w s).flag f = s.flag f := by simp [pushWord]
end pushWord

theorem pushWord_wf {w : Word} {s : State} (h : s.mem.wf = true) : (pushWord w s).mem.wf = true := push_wf (push_wf h)

theorem pushWord_peek_other {w : Word} {s : State} {addr : Word} (h1 : addr ≠ stackAddr s.sp)
    (h2 : addr ≠ stackAddr (s.sp - 1#8)) : (pushWord w s).peek addr = s.peek addr := by
  rw [pushWord, push_peek_other (by simpa using h2), push_peek_other h1]

theorem pushWord_peek_hi (w : Word) {s : State} (h : s.mem.wf = true) :
    (pushWord w s).peek (stackAddr s.sp) = if s.memPresent then hi w else 0x00#8 := by
  rw [pushWord, push_peek_other (by simpa using stackAddr_ne (byte_ne_pred s.sp)), push_peek_same _ h]

theorem pushWord_peek_lo (w : Word) {s : State} (h : s.mem.wf = true) :
    (pushWord w s).peek (stackAddr (s.sp - 1#8)) = if s.memPresent then lo w else 0x00#8 := by
  have := push_peek_same (lo w) (push_wf (v := hi w) h)
  simpa [pushWord] using this

/-! ## The trap -/

/-- The state once the trap's entry has pushed PC and P (45_control.md R212). -/
def trapPushed (s : State) : State := push s.p (pushWord s.pc s)

section trapPushed
variable (s : State)
@[simp] theorem trapPushed_a : (trapPushed s).a = s.a := by simp [trapPushed]
@[simp] theorem trapPushed_x : (trapPushed s).x = s.x := by simp [trapPushed]
@[simp] theorem trapPushed_y : (trapPushed s).y = s.y := by simp [trapPushed]
@[simp] theorem trapPushed_sp : (trapPushed s).sp = s.sp - 3#8 := by simp [trapPushed, BitVec.sub_sub]
@[simp] theorem trapPushed_p : (trapPushed s).p = s.p := by simp [trapPushed]
@[simp] theorem trapPushed_cycles : (trapPushed s).cycles = s.cycles + 3 := by simp [trapPushed]
@[simp] theorem trapPushed_memPresent : (trapPushed s).memPresent = s.memPresent := by simp [trapPushed]
@[simp] theorem trapPushed_faulted : (trapPushed s).faulted = s.faulted := by simp [trapPushed]
@[simp] theorem trapPushed_trace : (trapPushed s).trace = s.trace ++
    [.write (stackAddr s.sp) (hi s.pc), .write (stackAddr (s.sp - 1#8)) (lo s.pc),
     .write (stackAddr (s.sp - 2#8)) s.p] := by simp [trapPushed]
@[simp] theorem trapPushed_flag (f : Flag) : (trapPushed s).flag f = s.flag f := by simp [trapPushed]
end trapPushed

theorem trapPushed_peek_other {s : State} {addr : Word} (h1 : addr ≠ stackAddr s.sp)
    (h2 : addr ≠ stackAddr (s.sp - 1#8)) (h3 : addr ≠ stackAddr (s.sp - 2#8)) :
    (trapPushed s).peek addr = s.peek addr := by
  rw [trapPushed, push_peek_other (by simpa using h3), pushWord_peek_other h1 h2]

/-- A vector's bytes are not on the stack. -/
theorem stackAddr_ne_vector {addr : Word} (h : 512 ≤ addr.toNat) (p : Byte) : addr ≠ stackAddr p := by
  have h1 := stackAddr_toNat p
  have h2 := p.isLt
  rintro rfl
  omega

theorem trapPushed_peek_vector {s : State} {addr : Word} (h : 512 ≤ addr.toNat) :
    (trapPushed s).peek addr = s.peek addr :=
  trapPushed_peek_other (stackAddr_ne_vector h _) (stackAddr_ne_vector h _) (stackAddr_ne_vector h _)

theorem trapPushed_peek_pch {s : State} (h : s.mem.wf = true) :
    (trapPushed s).peek (stackAddr s.sp) = if s.memPresent then hi s.pc else 0x00#8 := by
  rw [trapPushed, push_peek_other (by simpa using stackAddr_ne (byte_ne_pred2 s.sp)), pushWord_peek_hi _ h]

theorem trapPushed_peek_pcl {s : State} (h : s.mem.wf = true) :
    (trapPushed s).peek (stackAddr (s.sp - 1#8)) = if s.memPresent then lo s.pc else 0x00#8 := by
  have hne : s.sp - 1#8 ≠ s.sp - 2#8 := by generalize s.sp = p; revert p; decide
  rw [trapPushed, push_peek_other (by simpa using stackAddr_ne hne), pushWord_peek_lo _ h]

theorem trapPushed_peek_p {s : State} (h : s.mem.wf = true) :
    (trapPushed s).peek (stackAddr (s.sp - 2#8)) = if s.memPresent then s.p else 0x00#8 := by
  have := push_peek_same s.p (pushWord_wf (w := s.pc) h)
  simpa [trapPushed] using this

/-- The state the trap's entry leaves: three pushes, the vector's two reads, PC, then B (R212). -/
theorem trapEntry_eq (s : State) :
    trapEntry s =
      (((trapPushed s).emit
          [.read 0xFFFE#16 (s.peek 0xFFFE#16), .read 0xFFFF#16 (s.peek 0xFFFF#16)]).setPc
        (w16 (s.peek 0xFFFF#16) (s.peek 0xFFFE#16))).setFlag .b true := by
  have h1 : (trapPushed s).peek 0xFFFE#16 = s.peek 0xFFFE#16 := trapPushed_peek_vector (by decide)
  have h2 : (trapPushed s).peek 0xFFFF#16 = s.peek 0xFFFF#16 := trapPushed_peek_vector (by decide)
  have h3 : brkVector + 1#16 = 0xFFFF#16 := rfl
  rw [trapEntry, readVector_eq, ← trapPushed, h3, brkVector, h1, h2]

/-- The state the trap's return leaves: the three pulls, P with all 8 bits, PC (R213). -/
theorem trapReturn_eq (s : State) :
    trapReturn s =
      (((s.setSp (s.sp + 1#8 + 1#8 + 1#8)).emit
          [.dead, .read (stackAddr (s.sp + 1#8)) (s.peek (stackAddr (s.sp + 1#8))), .dead,
           .read (stackAddr (s.sp + 1#8 + 1#8)) (s.peek (stackAddr (s.sp + 1#8 + 1#8))),
           .read (stackAddr (s.sp + 1#8 + 1#8 + 1#8)) (s.peek (stackAddr (s.sp + 1#8 + 1#8 + 1#8)))]).setP
        (s.peek (stackAddr (s.sp + 1#8)))).setPc
      (w16 (s.peek (stackAddr (s.sp + 1#8 + 1#8 + 1#8))) (s.peek (stackAddr (s.sp + 1#8 + 1#8)))) := by
  simp [trapReturn, dead_eq, pull_eq, pullWord_eq, State.emit, State.setSp, State.setP, State.setPc, State.peek]

/-- ADC and SBC under the default policy (42_alu.md R139). -/
@[simp] theorem arithOutcome_config (s t : State) : arithOutcome Config.decimalPolicy s t = .next t := rfl

end Sys2Proof.Machine
end

