-- ==== Sys2Proof/Laws/Step.lean ====
section
/-! SUPPORT. What the fetch and the step do, said once. -/

namespace Sys2Proof.Machine

/-- The state after `n` instruction bytes are fetched at PC: one read a byte, PC after the last
(40_sequencer_addressing.md R83). -/
def fetchEvents : Nat → Word → State → List BusEvent
  | 0, _, _ => []
  | n + 1, addr, s => .read addr (s.peek addr) :: fetchEvents n (addr + 1#16) s

theorem opcodeSize_cases (op : Byte) : opcodeSize op = 1 ∨ opcodeSize op = 2 ∨ opcodeSize op = 3 := by
  unfold opcodeSize Instr.size
  generalize (decodeOpcode op 0#8 0#16).mode = m
  cases m <;> simp [Mode.size]

/-- The fetch in full: the instruction is the opcode map's, from the bytes at PC, and nothing but the reads of its bytes
has happened. -/
theorem fetchInstr_eq (s : State) :
    fetchInstr s =
      (decodeOpcode (s.peek s.pc)
          (if opcodeSize (s.peek s.pc) = 2 then s.peek (s.pc + 1#16) else 0#8)
          (if opcodeSize (s.peek s.pc) = 3 then w16 (s.peek (s.pc + 1#16 + 1#16)) (s.peek (s.pc + 1#16)) else 0#16),
       (s.emit (fetchEvents (opcodeSize (s.peek s.pc)) s.pc s)).setPc
          (s.pc + BitVec.ofNat 16 (opcodeSize (s.peek s.pc)))) := by
  simp only [fetchInstr, fetchByte_eq]
  rcases opcodeSize_cases (s.peek s.pc) with h | h | h
  · simp [h, fetchEvents]
  · have h2 : s.pc + 1#16 + 1#16 = s.pc + 2#16 := by rw [BitVec.add_assoc]; rfl
    simp [h, fetchEvents, State.setPc_emit, h2]
  · have h3 : s.pc + 1#16 + 1#16 + 1#16 = s.pc + 3#16 := by rw [BitVec.add_assoc, BitVec.add_assoc]; rfl
    simp [h, fetchEvents, State.setPc_emit, h3]

theorem step_of_running {s : State} (h : s.faulted = none) :
    step s = exec (fetchInstr s.clearTrace).1 (fetchInstr s.clearTrace).2 := by
  simp [step, h]

end Sys2Proof.Machine
end

