-- ==== Sys2Proof/Laws/Exec.lean ====
section
/-! SUPPORT. What `exec` answers, said once for each operation class of 40_sequencer_addressing.md R84: which shared
operation it runs, on which operand. -/

namespace Sys2Proof.Machine

/-- The computation of a class-R operation. -/
def readFn : Operation → Byte → State → State
  | .lda => loadA
  | .ldx => loadX
  | .ldy => loadY
  | .ora => orA
  | .and => andA
  | .eor => eorA
  | .adc => addWithCarry
  | .sbc => subtractWithBorrow
  | .cmp => compareA
  | .cpx => compareX
  | .cpy => compareY
  | .bit => bitTest
  | _ => fun _ s => s

/-- The computation of a class-M operation. -/
def modifyFn : Operation → Byte → State → Byte × State
  | .asl => shiftLeft
  | .lsr => shiftRight
  | .rol => rotateLeft
  | .ror => rotateRight
  | .inc => increment
  | .dec => decrement
  | _ => fun old s => (old, s)

/-- A class-R instruction has an immediate or a memory operand. -/
theorem operand_of_read {i : Instr} (h : i.operation.opClass = some .r) :
    (∃ d, i.operand = .imm d) ∨ ∃ m, i.operand = .mem m := by
  cases i <;> first
    | (cases h; done)
    | exact .inl ⟨_, rfl⟩
    | exact .inr ⟨_, rfl⟩

theorem operand_of_store {i : Instr} (h : i.operation.opClass = some .w) : ∃ m, i.operand = .mem m := by
  cases i <;> first
    | (cases h; done)
    | exact ⟨_, rfl⟩

theorem operand_of_modify {i : Instr} (h : i.operation.opClass = some .m) :
    i.operand = .acc ∨ ∃ m, i.operand = .mem m := by
  cases i <;> first
    | (cases h; done)
    | exact .inl rfl
    | exact .inr ⟨_, rfl⟩

theorem operand_of_branch {i : Instr} (h : i.operation.opClass = some .b) : ∃ d, i.operand = .rel d := by
  cases i <;> first
    | (cases h; done)
    | exact ⟨_, rfl⟩

/-- A class-R instruction with an immediate operand. -/
theorem exec_read_imm {i : Instr} {d : Byte} (h : i.operation.opClass = some .r) (ho : i.operand = .imm d) (s : State) :
    exec i s = .next (readFn i.operation d s) := by
  cases i <;> first
    | (cases h; done)
    | (cases ho; done)
    | (cases ho; rfl)

/-- A class-R instruction with a memory operand. -/
theorem exec_read_mem {i : Instr} {m : MemMode} (h : i.operation.opClass = some .r) (ho : i.operand = .mem m)
    (s : State) : exec i s = .next (readWith (readFn i.operation) m s) := by
  cases i <;> first
    | (cases h; done)
    | (cases ho; done)
    | (cases ho; rfl)

/-- The bus events of a class-R instruction after its own bytes. -/
def sourceEvents (i : Instr) (s : State) : List BusEvent :=
  match i.operand with
  | .mem m => addressEvents .r m s ++ [.read (effectiveAddress m s) (s.peek (effectiveAddress m s))]
  | _ => []

/-- A class-R instruction in any mode: its computation on the operand byte, after the events of its mode. -/
theorem exec_read {i : Instr} (h : i.operation.opClass = some .r) (s : State) :
    exec i s = .next (readFn i.operation (sourceByte i s) (s.emit (sourceEvents i s))) := by
  rcases operand_of_read h with ⟨d, ho⟩ | ⟨m, ho⟩
  · simp [exec_read_imm h ho, sourceByte, sourceEvents, ho]
  · simp [exec_read_mem h ho, sourceByte, sourceEvents, ho, readWith_eq, resolve_eq]

/-- A store in any mode. -/
theorem exec_store {i : Instr} {r : Reg} {m : MemMode}
    (h : (i.operation, r) ∈ [(Operation.sta, Reg.a), (.stx, .x), (.sty, .y)]) (ho : i.operand = .mem m) (s : State) :
    exec i s = .next (storeTo (s.reg r) m s) := by
  simp only [List.mem_cons, List.not_mem_nil, or_false, Prod.mk.injEq] at h
  rcases h with ⟨h, rfl⟩ | ⟨h, rfl⟩ | ⟨h, rfl⟩ <;> cases i <;> first
    | (cases h; done)
    | (cases ho; rfl)

/-- A read-modify-write instruction on memory. -/
theorem exec_modify_mem {i : Instr} {m : MemMode} (h : i.operation.opClass = some .m) (ho : i.operand = .mem m)
    (s : State) : exec i s = .next (modifyMemory (modifyFn i.operation) m s) := by
  cases i <;> first
    | (cases h; done)
    | (cases ho; done)
    | (cases ho; rfl)

/-- A shift or rotate of A. -/
theorem exec_modify_acc {i : Instr} (h : i.operation.opClass = some .m) (ho : i.operand = .acc) (s : State) :
    exec i s = .next (modifyAcc (modifyFn i.operation) s) := by
  cases i <;> first
    | (cases h; done)
    | (cases ho; done)
    | rfl

theorem opClass_of_branch {o : Operation} {c : Flag × Bool} (h : branchCondition o = some c) : o.opClass = some .b := by
  cases o <;> first
    | (cases h; done)
    | rfl

/-- A branch. -/
theorem exec_branch {i : Instr} {f : Flag} {v : Bool} {d : Byte} (h : branchCondition i.operation = some (f, v))
    (ho : i.operand = .rel d) (s : State) : exec i s = .next (branch f v d s) := by
  cases i <;> first
    | (cases h; done)
    | (cases ho; cases h; rfl)

/-- The computation of a class-M operation changes flags only. -/
theorem modifyFn_flagsOnly (o : Operation) : FlagsOnly (modifyFn o) := by
  cases o <;> exact fun _ _ => ⟨_, rfl⟩

end Sys2Proof.Machine
end

