-- ==== Sys2Proof/Laws/Effect.lean ====
section
/-! SUPPORT. What every meaning does, whichever it is: it leaves the memory reference and the record of a fault alone,
keeps the canonical form of memory, and counts one cycle for each event it appends to the trace. -/

namespace Sys2Proof.Machine

/-- `t` follows from `s` by bus events and named writes of registers, flags and memory. -/
structure Follows (s t : State) : Prop where
  present : t.memPresent = s.memPresent
  faulted : t.faulted = s.faulted
  wf : s.mem.wf = true → t.mem.wf = true
  events : ∃ es, t.trace = s.trace ++ es ∧ t.cycles = s.cycles + es.length

namespace Follows

theorem refl (s : State) : Follows s s := ⟨rfl, rfl, id, [], by simp⟩

theorem trans {s t u : State} (h : Follows s t) (k : Follows t u) : Follows s u := by
  obtain ⟨h1, h2, h3, es, h4, h5⟩ := h
  obtain ⟨k1, k2, k3, fs, k4, k5⟩ := k
  refine ⟨k1.trans h1, k2.trans h2, k3 ∘ h3, es ++ fs, ?_, ?_⟩
  · rw [k4, h4, List.append_assoc]
  · rw [k5, h5, List.length_append, Nat.add_assoc]

/-- A write of registers or flags that leaves the rest alone. -/
theorem of_write {s t : State} (h1 : t.memPresent = s.memPresent) (h2 : t.faulted = s.faulted) (h3 : t.mem = s.mem)
    (h4 : t.trace = s.trace) (h5 : t.cycles = s.cycles) : Follows s t :=
  ⟨h1, h2, fun h => h3 ▸ h, [], by simp [h4, h5]⟩

theorem setA (v : Byte) (s : State) : Follows s (s.setA v) := of_write rfl rfl rfl rfl rfl
theorem setX (v : Byte) (s : State) : Follows s (s.setX v) := of_write rfl rfl rfl rfl rfl
theorem setY (v : Byte) (s : State) : Follows s (s.setY v) := of_write rfl rfl rfl rfl rfl
theorem setSp (v : Byte) (s : State) : Follows s (s.setSp v) := of_write rfl rfl rfl rfl rfl
theorem setP (v : Byte) (s : State) : Follows s (s.setP v) := of_write rfl rfl rfl rfl rfl
theorem setPc (v : Word) (s : State) : Follows s (s.setPc v) := of_write rfl rfl rfl rfl rfl
theorem setFlag (f : Flag) (v : Bool) (s : State) : Follows s (s.setFlag f v) := of_write rfl rfl rfl rfl rfl
theorem setNZ (v : Byte) (s : State) : Follows s (Machine.setNZ v s) := of_write rfl rfl rfl rfl rfl

theorem emit (es : List BusEvent) (s : State) : Follows s (s.emit es) := ⟨rfl, rfl, id, es, rfl, rfl⟩

theorem dead (s : State) : Follows s (Machine.dead s) := emit [.dead] s

theorem memWrite (addr : Word) (v : Byte) (s : State) : Follows s (Machine.memWrite addr v s) :=
  ⟨by simp, by simp, memWrite_wf, [.write addr v], by simp⟩

theorem push (v : Byte) (s : State) : Follows s (Machine.push v s) :=
  (memWrite _ v s).trans (of_write rfl rfl rfl rfl rfl)

theorem pushWord (w : Word) (s : State) : Follows s (Machine.pushWord w s) := (push _ s).trans (push _ _)

theorem pull (s : State) : Follows s (Machine.pull s).2 := by
  rw [pull_eq]
  exact (of_write rfl rfl rfl rfl rfl : Follows s (s.setSp (s.sp + 1#8))).trans (emit _ _)

theorem pullWord (s : State) : Follows s (Machine.pullWord s).2 := (pull s).trans (pull _)

theorem trapEntry (s : State) : Follows s (Machine.trapEntry s) := by
  rw [trapEntry_eq]
  exact ((pushWord s.pc s).trans (push s.p _)).trans ((emit _ _).trans ((setPc _ _).trans (setFlag _ _ _)))

theorem trapReturn (s : State) : Follows s (Machine.trapReturn s) := by
  unfold Machine.trapReturn
  exact (((emit [.dead] s).trans (pull _)).trans (of_write rfl rfl rfl rfl rfl)).trans
    ((emit [.dead] _).trans ((pullWord _).trans (of_write rfl rfl rfl rfl rfl)))

/-- Every class-R computation writes registers and flags only. -/
theorem readFn (o : Operation) (v : Byte) (s : State) : Follows s (Machine.readFn o v s) := by
  cases o <;> exact of_write rfl rfl rfl rfl rfl

theorem modifyFn (o : Operation) (old : Byte) (s : State) : Follows s (Machine.modifyFn o old s).2 := by
  obtain ⟨p, h⟩ := modifyFn_flagsOnly o old s
  rw [h]; exact of_write rfl rfl rfl rfl rfl

end Follows

/-- A meaning of class I or S (40_sequencer_addressing.md R84), or of JMP. -/
theorem exec_follows_implied {i : Instr} {s t : State} (hr : i.operation.opClass ≠ some .r)
    (hm : i.operation.opClass ≠ some .m) (hb : i.operation.opClass ≠ some .b) (hw : i.operation.opClass ≠ some .w)
    (h : exec i s = .next t) : Follows s t := by
  cases i
  all_goals first
    | exact absurd rfl hr
    | exact absurd rfl hm
    | exact absurd rfl hb
    | exact absurd rfl hw
    | (cases h; done)
    | (obtain rfl := Host.Outcome.next.inj h)
  case jmpInd w =>
    simp only [resolveInd_eq]
    exact (Follows.emit _ s).trans (Follows.setPc _ _)
  case jmpAbs w => exact Follows.setPc w s
  case jsr w => exact ((Follows.dead s).trans (Follows.pushWord s.pc _)).trans (Follows.setPc w _)
  case rts =>
    exact (((Follows.dead s).trans (Follows.dead _)).trans ((Follows.dead _).trans (Follows.pullWord _))).trans
      (Follows.setPc _ _)
  case brk => exact ((Follows.dead s).trans (Follows.setPc _ _)).trans (Follows.trapEntry _)
  case rti => exact Follows.trapReturn s
  case pha => exact ((Follows.dead s).trans (Follows.push s.a _)).trans (Follows.setNZ s.a _)
  case php => exact (Follows.dead s).trans (Follows.push s.p _)
  case pla =>
    exact (((Follows.dead s).trans (Follows.dead _)).trans (Follows.pull _)).trans
      ((Follows.setA _ _).trans (Follows.setNZ _ _))
  case plp => exact (((Follows.dead s).trans (Follows.dead _)).trans (Follows.pull _)).trans (Follows.setP _ _)
  all_goals first
    | exact Follows.dead s
    | exact (Follows.dead s).trans (Follows.setFlag _ _ _)
    | exact (Follows.dead s).trans (Follows.setSp _ _)
    | exact (Follows.dead s).trans ((Follows.setX _ _).trans (Follows.setNZ _ _))
    | exact (Follows.dead s).trans ((Follows.setY _ _).trans (Follows.setNZ _ _))
    | exact (Follows.dead s).trans ((Follows.setA _ _).trans (Follows.setNZ _ _))

/-- What every meaning that answers a next state does. -/
theorem exec_follows {i : Instr} {s t : State} (h : exec i s = .next t) : Follows s t := by
  by_cases hr : i.operation.opClass = some .r
  · rw [exec_read hr] at h
    cases h
    exact (Follows.emit _ s).trans (Follows.readFn _ _ _)
  by_cases hm : i.operation.opClass = some .m
  · rcases operand_of_modify hm with ho | ⟨m, ho⟩
    · rw [exec_modify_acc hm ho] at h
      cases h
      exact ((Follows.emit [.dead] s).trans (Follows.modifyFn _ _ _)).trans (Follows.of_write rfl rfl rfl rfl rfl)
    · rw [exec_modify_mem hm ho, modifyMemory_eq] at h
      cases h
      exact ((Follows.emit _ s).trans (Follows.modifyFn _ _ _)).trans (Follows.memWrite _ _ _)
  by_cases hb : i.operation.opClass = some .b
  · obtain ⟨d, ho⟩ := operand_of_branch hb
    obtain ⟨⟨f, v⟩, hc⟩ : ∃ c, branchCondition i.operation = some c := by
      cases i <;> first
        | (cases hb; done)
        | exact ⟨_, rfl⟩
    rw [exec_branch hc ho, branch_eq] at h
    cases h
    split
    · exact (Follows.emit _ s).trans (Follows.of_write rfl rfl rfl rfl rfl)
    · exact Follows.refl s
  by_cases hw : i.operation.opClass = some .w
  · obtain ⟨m, ho⟩ := operand_of_store hw
    obtain ⟨r, hmem⟩ : ∃ r, (i.operation, r) ∈ [(Operation.sta, Reg.a), (.stx, .x), (.sty, .y)] := by
      cases i <;> first
        | (cases hw; done)
        | exact ⟨.a, .head _⟩
        | exact ⟨.x, .tail _ (.head _)⟩
        | exact ⟨.y, .tail _ (.tail _ (.head _))⟩
    rw [exec_store hmem ho, storeTo_eq] at h
    cases h
    exact (Follows.emit _ s).trans (Follows.memWrite _ _ _)
  exact exec_follows_implied hr hm hb hw h

/-- `exec` gives a fault only to an undefined opcode. -/
theorem exec_fault {i : Instr} {s : State} {r : Fault} (h : exec i s = .fault r) :
    ∃ op, i = .undefined op ∧
      r = .undefinedOpcode op (s.pc - 1#16) (s.setFaulted (some (op, s.pc - 1#16))) := by
  cases i <;> first
    | (cases h; exact ⟨_, rfl, rfl⟩)
    | cases h

end Sys2Proof.Machine
end

