-- ==== Sys2Proof/Laws/Host.lean ====
section
/-! SUPPORT. What the host's commands do, said once (70_reset_and_hazards.md R260 to R263). -/

namespace Sys2Proof.Machine

/-- `reset()` in full. -/
theorem resetCommand_eq (s : State) :
    resetCommand s =
      { s with
        sp := s.sp - 3#8
        pc := w16 (s.peek 0xFFFD#16) (s.peek 0xFFFC#16)
        cycles := s.cycles + 2
        faulted := none
        trace := [.read 0xFFFC#16 (s.peek 0xFFFC#16), .read 0xFFFD#16 (s.peek 0xFFFD#16)] } := rfl

theorem resetCommand_wf {s : State} (h : s.mem.wf = true) : (resetCommand s).mem.wf = true := h

theorem hostWrite_wf {addr : Word} {v : Byte} {s : State} (h : s.mem.wf = true) : (hostWrite addr v s).mem.wf = true := by
  unfold hostWrite; split
  · exact Memory.write_wf h addr.isLt
  · exact h

end Sys2Proof.Machine
end

