-- ==== Sys2Proof/Laws/PerInstr.lean ====
section
/-! SUPPORT. One lemma per constructor of Instr. The family EncodedLength says of an instruction as syntax that its
encoding is as long as the format of its mode (30_encoding.md R60), begins with the instruction's opcode byte, and that
this byte alone gives that length where the instruction is well-formed (R69). -/

namespace Sys2Proof.Laws.EncodedLength

/-- The encoding's length is the mode's, and a well-formed instruction's opcode byte gives it. -/
def Statement (i : Instr) : Prop :=
  (encode i).length = i.size ∧ (encode i).head? = some i.opcode ∧ (i.wf = true → opcodeSize i.opcode = i.size)

theorem ldaImm (d : Byte) : Statement (.ldaImm d) := ⟨rfl, rfl, fun _ => show opcodeSize 0xA9#8 = _ from rfl⟩
theorem ldaZp (d : Byte) : Statement (.ldaZp d) := ⟨rfl, rfl, fun _ => show opcodeSize 0xA5#8 = _ from rfl⟩
theorem ldaZpx (d : Byte) : Statement (.ldaZpx d) := ⟨rfl, rfl, fun _ => show opcodeSize 0xB5#8 = _ from rfl⟩
theorem ldaAbs (w : Word) : Statement (.ldaAbs w) := ⟨rfl, rfl, fun _ => show opcodeSize 0xAD#8 = _ from rfl⟩
theorem ldaAbsx (w : Word) : Statement (.ldaAbsx w) := ⟨rfl, rfl, fun _ => show opcodeSize 0xBD#8 = _ from rfl⟩
theorem ldaAbsy (w : Word) : Statement (.ldaAbsy w) := ⟨rfl, rfl, fun _ => show opcodeSize 0xB9#8 = _ from rfl⟩
theorem ldaIndx (d : Byte) : Statement (.ldaIndx d) := ⟨rfl, rfl, fun _ => show opcodeSize 0xA1#8 = _ from rfl⟩
theorem ldaIndy (d : Byte) : Statement (.ldaIndy d) := ⟨rfl, rfl, fun _ => show opcodeSize 0xB1#8 = _ from rfl⟩
theorem ldxImm (d : Byte) : Statement (.ldxImm d) := ⟨rfl, rfl, fun _ => show opcodeSize 0xA2#8 = _ from rfl⟩
theorem ldxZp (d : Byte) : Statement (.ldxZp d) := ⟨rfl, rfl, fun _ => show opcodeSize 0xA6#8 = _ from rfl⟩
theorem ldxZpy (d : Byte) : Statement (.ldxZpy d) := ⟨rfl, rfl, fun _ => show opcodeSize 0xB6#8 = _ from rfl⟩
theorem ldxAbs (w : Word) : Statement (.ldxAbs w) := ⟨rfl, rfl, fun _ => show opcodeSize 0xAE#8 = _ from rfl⟩
theorem ldxAbsy (w : Word) : Statement (.ldxAbsy w) := ⟨rfl, rfl, fun _ => show opcodeSize 0xBE#8 = _ from rfl⟩
theorem ldyImm (d : Byte) : Statement (.ldyImm d) := ⟨rfl, rfl, fun _ => show opcodeSize 0xA0#8 = _ from rfl⟩
theorem ldyZp (d : Byte) : Statement (.ldyZp d) := ⟨rfl, rfl, fun _ => show opcodeSize 0xA4#8 = _ from rfl⟩
theorem ldyZpx (d : Byte) : Statement (.ldyZpx d) := ⟨rfl, rfl, fun _ => show opcodeSize 0xB4#8 = _ from rfl⟩
theorem ldyAbs (w : Word) : Statement (.ldyAbs w) := ⟨rfl, rfl, fun _ => show opcodeSize 0xAC#8 = _ from rfl⟩
theorem ldyAbsx (w : Word) : Statement (.ldyAbsx w) := ⟨rfl, rfl, fun _ => show opcodeSize 0xBC#8 = _ from rfl⟩
theorem staZp (d : Byte) : Statement (.staZp d) := ⟨rfl, rfl, fun _ => show opcodeSize 0x85#8 = _ from rfl⟩
theorem staZpx (d : Byte) : Statement (.staZpx d) := ⟨rfl, rfl, fun _ => show opcodeSize 0x95#8 = _ from rfl⟩
theorem staAbs (w : Word) : Statement (.staAbs w) := ⟨rfl, rfl, fun _ => show opcodeSize 0x8D#8 = _ from rfl⟩
theorem staAbsx (w : Word) : Statement (.staAbsx w) := ⟨rfl, rfl, fun _ => show opcodeSize 0x9D#8 = _ from rfl⟩
theorem staAbsy (w : Word) : Statement (.staAbsy w) := ⟨rfl, rfl, fun _ => show opcodeSize 0x99#8 = _ from rfl⟩
theorem staIndx (d : Byte) : Statement (.staIndx d) := ⟨rfl, rfl, fun _ => show opcodeSize 0x81#8 = _ from rfl⟩
theorem staIndy (d : Byte) : Statement (.staIndy d) := ⟨rfl, rfl, fun _ => show opcodeSize 0x91#8 = _ from rfl⟩
theorem stxZp (d : Byte) : Statement (.stxZp d) := ⟨rfl, rfl, fun _ => show opcodeSize 0x86#8 = _ from rfl⟩
theorem stxZpy (d : Byte) : Statement (.stxZpy d) := ⟨rfl, rfl, fun _ => show opcodeSize 0x96#8 = _ from rfl⟩
theorem stxAbs (w : Word) : Statement (.stxAbs w) := ⟨rfl, rfl, fun _ => show opcodeSize 0x8E#8 = _ from rfl⟩
theorem styZp (d : Byte) : Statement (.styZp d) := ⟨rfl, rfl, fun _ => show opcodeSize 0x84#8 = _ from rfl⟩
theorem styZpx (d : Byte) : Statement (.styZpx d) := ⟨rfl, rfl, fun _ => show opcodeSize 0x94#8 = _ from rfl⟩
theorem styAbs (w : Word) : Statement (.styAbs w) := ⟨rfl, rfl, fun _ => show opcodeSize 0x8C#8 = _ from rfl⟩
theorem oraImm (d : Byte) : Statement (.oraImm d) := ⟨rfl, rfl, fun _ => show opcodeSize 0x09#8 = _ from rfl⟩
theorem oraZp (d : Byte) : Statement (.oraZp d) := ⟨rfl, rfl, fun _ => show opcodeSize 0x05#8 = _ from rfl⟩
theorem oraZpx (d : Byte) : Statement (.oraZpx d) := ⟨rfl, rfl, fun _ => show opcodeSize 0x15#8 = _ from rfl⟩
theorem oraAbs (w : Word) : Statement (.oraAbs w) := ⟨rfl, rfl, fun _ => show opcodeSize 0x0D#8 = _ from rfl⟩
theorem oraAbsx (w : Word) : Statement (.oraAbsx w) := ⟨rfl, rfl, fun _ => show opcodeSize 0x1D#8 = _ from rfl⟩
theorem oraAbsy (w : Word) : Statement (.oraAbsy w) := ⟨rfl, rfl, fun _ => show opcodeSize 0x19#8 = _ from rfl⟩
theorem oraIndx (d : Byte) : Statement (.oraIndx d) := ⟨rfl, rfl, fun _ => show opcodeSize 0x01#8 = _ from rfl⟩
theorem oraIndy (d : Byte) : Statement (.oraIndy d) := ⟨rfl, rfl, fun _ => show opcodeSize 0x11#8 = _ from rfl⟩
theorem andImm (d : Byte) : Statement (.andImm d) := ⟨rfl, rfl, fun _ => show opcodeSize 0x29#8 = _ from rfl⟩
theorem andZp (d : Byte) : Statement (.andZp d) := ⟨rfl, rfl, fun _ => show opcodeSize 0x25#8 = _ from rfl⟩
theorem andZpx (d : Byte) : Statement (.andZpx d) := ⟨rfl, rfl, fun _ => show opcodeSize 0x35#8 = _ from rfl⟩
theorem andAbs (w : Word) : Statement (.andAbs w) := ⟨rfl, rfl, fun _ => show opcodeSize 0x2D#8 = _ from rfl⟩
theorem andAbsx (w : Word) : Statement (.andAbsx w) := ⟨rfl, rfl, fun _ => show opcodeSize 0x3D#8 = _ from rfl⟩
theorem andAbsy (w : Word) : Statement (.andAbsy w) := ⟨rfl, rfl, fun _ => show opcodeSize 0x39#8 = _ from rfl⟩
theorem andIndx (d : Byte) : Statement (.andIndx d) := ⟨rfl, rfl, fun _ => show opcodeSize 0x21#8 = _ from rfl⟩
theorem andIndy (d : Byte) : Statement (.andIndy d) := ⟨rfl, rfl, fun _ => show opcodeSize 0x31#8 = _ from rfl⟩
theorem eorImm (d : Byte) : Statement (.eorImm d) := ⟨rfl, rfl, fun _ => show opcodeSize 0x49#8 = _ from rfl⟩
theorem eorZp (d : Byte) : Statement (.eorZp d) := ⟨rfl, rfl, fun _ => show opcodeSize 0x45#8 = _ from rfl⟩
theorem eorZpx (d : Byte) : Statement (.eorZpx d) := ⟨rfl, rfl, fun _ => show opcodeSize 0x55#8 = _ from rfl⟩
theorem eorAbs (w : Word) : Statement (.eorAbs w) := ⟨rfl, rfl, fun _ => show opcodeSize 0x4D#8 = _ from rfl⟩
theorem eorAbsx (w : Word) : Statement (.eorAbsx w) := ⟨rfl, rfl, fun _ => show opcodeSize 0x5D#8 = _ from rfl⟩
theorem eorAbsy (w : Word) : Statement (.eorAbsy w) := ⟨rfl, rfl, fun _ => show opcodeSize 0x59#8 = _ from rfl⟩
theorem eorIndx (d : Byte) : Statement (.eorIndx d) := ⟨rfl, rfl, fun _ => show opcodeSize 0x41#8 = _ from rfl⟩
theorem eorIndy (d : Byte) : Statement (.eorIndy d) := ⟨rfl, rfl, fun _ => show opcodeSize 0x51#8 = _ from rfl⟩
theorem adcImm (d : Byte) : Statement (.adcImm d) := ⟨rfl, rfl, fun _ => show opcodeSize 0x69#8 = _ from rfl⟩
theorem adcZp (d : Byte) : Statement (.adcZp d) := ⟨rfl, rfl, fun _ => show opcodeSize 0x65#8 = _ from rfl⟩
theorem adcZpx (d : Byte) : Statement (.adcZpx d) := ⟨rfl, rfl, fun _ => show opcodeSize 0x75#8 = _ from rfl⟩
theorem adcAbs (w : Word) : Statement (.adcAbs w) := ⟨rfl, rfl, fun _ => show opcodeSize 0x6D#8 = _ from rfl⟩
theorem adcAbsx (w : Word) : Statement (.adcAbsx w) := ⟨rfl, rfl, fun _ => show opcodeSize 0x7D#8 = _ from rfl⟩
theorem adcAbsy (w : Word) : Statement (.adcAbsy w) := ⟨rfl, rfl, fun _ => show opcodeSize 0x79#8 = _ from rfl⟩
theorem adcIndx (d : Byte) : Statement (.adcIndx d) := ⟨rfl, rfl, fun _ => show opcodeSize 0x61#8 = _ from rfl⟩
theorem adcIndy (d : Byte) : Statement (.adcIndy d) := ⟨rfl, rfl, fun _ => show opcodeSize 0x71#8 = _ from rfl⟩
theorem sbcImm (d : Byte) : Statement (.sbcImm d) := ⟨rfl, rfl, fun _ => show opcodeSize 0xE9#8 = _ from rfl⟩
theorem sbcZp (d : Byte) : Statement (.sbcZp d) := ⟨rfl, rfl, fun _ => show opcodeSize 0xE5#8 = _ from rfl⟩
theorem sbcZpx (d : Byte) : Statement (.sbcZpx d) := ⟨rfl, rfl, fun _ => show opcodeSize 0xF5#8 = _ from rfl⟩
theorem sbcAbs (w : Word) : Statement (.sbcAbs w) := ⟨rfl, rfl, fun _ => show opcodeSize 0xED#8 = _ from rfl⟩
theorem sbcAbsx (w : Word) : Statement (.sbcAbsx w) := ⟨rfl, rfl, fun _ => show opcodeSize 0xFD#8 = _ from rfl⟩
theorem sbcAbsy (w : Word) : Statement (.sbcAbsy w) := ⟨rfl, rfl, fun _ => show opcodeSize 0xF9#8 = _ from rfl⟩
theorem sbcIndx (d : Byte) : Statement (.sbcIndx d) := ⟨rfl, rfl, fun _ => show opcodeSize 0xE1#8 = _ from rfl⟩
theorem sbcIndy (d : Byte) : Statement (.sbcIndy d) := ⟨rfl, rfl, fun _ => show opcodeSize 0xF1#8 = _ from rfl⟩
theorem cmpImm (d : Byte) : Statement (.cmpImm d) := ⟨rfl, rfl, fun _ => show opcodeSize 0xC9#8 = _ from rfl⟩
theorem cmpZp (d : Byte) : Statement (.cmpZp d) := ⟨rfl, rfl, fun _ => show opcodeSize 0xC5#8 = _ from rfl⟩
theorem cmpZpx (d : Byte) : Statement (.cmpZpx d) := ⟨rfl, rfl, fun _ => show opcodeSize 0xD5#8 = _ from rfl⟩
theorem cmpAbs (w : Word) : Statement (.cmpAbs w) := ⟨rfl, rfl, fun _ => show opcodeSize 0xCD#8 = _ from rfl⟩
theorem cmpAbsx (w : Word) : Statement (.cmpAbsx w) := ⟨rfl, rfl, fun _ => show opcodeSize 0xDD#8 = _ from rfl⟩
theorem cmpAbsy (w : Word) : Statement (.cmpAbsy w) := ⟨rfl, rfl, fun _ => show opcodeSize 0xD9#8 = _ from rfl⟩
theorem cmpIndx (d : Byte) : Statement (.cmpIndx d) := ⟨rfl, rfl, fun _ => show opcodeSize 0xC1#8 = _ from rfl⟩
theorem cmpIndy (d : Byte) : Statement (.cmpIndy d) := ⟨rfl, rfl, fun _ => show opcodeSize 0xD1#8 = _ from rfl⟩
theorem cpxImm (d : Byte) : Statement (.cpxImm d) := ⟨rfl, rfl, fun _ => show opcodeSize 0xE0#8 = _ from rfl⟩
theorem cpxZp (d : Byte) : Statement (.cpxZp d) := ⟨rfl, rfl, fun _ => show opcodeSize 0xE4#8 = _ from rfl⟩
theorem cpxAbs (w : Word) : Statement (.cpxAbs w) := ⟨rfl, rfl, fun _ => show opcodeSize 0xEC#8 = _ from rfl⟩
theorem cpyImm (d : Byte) : Statement (.cpyImm d) := ⟨rfl, rfl, fun _ => show opcodeSize 0xC0#8 = _ from rfl⟩
theorem cpyZp (d : Byte) : Statement (.cpyZp d) := ⟨rfl, rfl, fun _ => show opcodeSize 0xC4#8 = _ from rfl⟩
theorem cpyAbs (w : Word) : Statement (.cpyAbs w) := ⟨rfl, rfl, fun _ => show opcodeSize 0xCC#8 = _ from rfl⟩
theorem incZp (d : Byte) : Statement (.incZp d) := ⟨rfl, rfl, fun _ => show opcodeSize 0xE6#8 = _ from rfl⟩
theorem incZpx (d : Byte) : Statement (.incZpx d) := ⟨rfl, rfl, fun _ => show opcodeSize 0xF6#8 = _ from rfl⟩
theorem incAbs (w : Word) : Statement (.incAbs w) := ⟨rfl, rfl, fun _ => show opcodeSize 0xEE#8 = _ from rfl⟩
theorem incAbsx (w : Word) : Statement (.incAbsx w) := ⟨rfl, rfl, fun _ => show opcodeSize 0xFE#8 = _ from rfl⟩
theorem decZp (d : Byte) : Statement (.decZp d) := ⟨rfl, rfl, fun _ => show opcodeSize 0xC6#8 = _ from rfl⟩
theorem decZpx (d : Byte) : Statement (.decZpx d) := ⟨rfl, rfl, fun _ => show opcodeSize 0xD6#8 = _ from rfl⟩
theorem decAbs (w : Word) : Statement (.decAbs w) := ⟨rfl, rfl, fun _ => show opcodeSize 0xCE#8 = _ from rfl⟩
theorem decAbsx (w : Word) : Statement (.decAbsx w) := ⟨rfl, rfl, fun _ => show opcodeSize 0xDE#8 = _ from rfl⟩
theorem inx : Statement .inx := ⟨rfl, rfl, fun _ => show opcodeSize 0xE8#8 = _ from rfl⟩
theorem iny : Statement .iny := ⟨rfl, rfl, fun _ => show opcodeSize 0xC8#8 = _ from rfl⟩
theorem dex : Statement .dex := ⟨rfl, rfl, fun _ => show opcodeSize 0xCA#8 = _ from rfl⟩
theorem dey : Statement .dey := ⟨rfl, rfl, fun _ => show opcodeSize 0x88#8 = _ from rfl⟩
theorem aslAcc : Statement .aslAcc := ⟨rfl, rfl, fun _ => show opcodeSize 0x0A#8 = _ from rfl⟩
theorem aslZp (d : Byte) : Statement (.aslZp d) := ⟨rfl, rfl, fun _ => show opcodeSize 0x06#8 = _ from rfl⟩
theorem aslZpx (d : Byte) : Statement (.aslZpx d) := ⟨rfl, rfl, fun _ => show opcodeSize 0x16#8 = _ from rfl⟩
theorem aslAbs (w : Word) : Statement (.aslAbs w) := ⟨rfl, rfl, fun _ => show opcodeSize 0x0E#8 = _ from rfl⟩
theorem aslAbsx (w : Word) : Statement (.aslAbsx w) := ⟨rfl, rfl, fun _ => show opcodeSize 0x1E#8 = _ from rfl⟩
theorem lsrAcc : Statement .lsrAcc := ⟨rfl, rfl, fun _ => show opcodeSize 0x4A#8 = _ from rfl⟩
theorem lsrZp (d : Byte) : Statement (.lsrZp d) := ⟨rfl, rfl, fun _ => show opcodeSize 0x46#8 = _ from rfl⟩
theorem lsrZpx (d : Byte) : Statement (.lsrZpx d) := ⟨rfl, rfl, fun _ => show opcodeSize 0x56#8 = _ from rfl⟩
theorem lsrAbs (w : Word) : Statement (.lsrAbs w) := ⟨rfl, rfl, fun _ => show opcodeSize 0x4E#8 = _ from rfl⟩
theorem lsrAbsx (w : Word) : Statement (.lsrAbsx w) := ⟨rfl, rfl, fun _ => show opcodeSize 0x5E#8 = _ from rfl⟩
theorem rolAcc : Statement .rolAcc := ⟨rfl, rfl, fun _ => show opcodeSize 0x2A#8 = _ from rfl⟩
theorem rolZp (d : Byte) : Statement (.rolZp d) := ⟨rfl, rfl, fun _ => show opcodeSize 0x26#8 = _ from rfl⟩
theorem rolZpx (d : Byte) : Statement (.rolZpx d) := ⟨rfl, rfl, fun _ => show opcodeSize 0x36#8 = _ from rfl⟩
theorem rolAbs (w : Word) : Statement (.rolAbs w) := ⟨rfl, rfl, fun _ => show opcodeSize 0x2E#8 = _ from rfl⟩
theorem rolAbsx (w : Word) : Statement (.rolAbsx w) := ⟨rfl, rfl, fun _ => show opcodeSize 0x3E#8 = _ from rfl⟩
theorem rorAcc : Statement .rorAcc := ⟨rfl, rfl, fun _ => show opcodeSize 0x6A#8 = _ from rfl⟩
theorem rorZp (d : Byte) : Statement (.rorZp d) := ⟨rfl, rfl, fun _ => show opcodeSize 0x66#8 = _ from rfl⟩
theorem rorZpx (d : Byte) : Statement (.rorZpx d) := ⟨rfl, rfl, fun _ => show opcodeSize 0x76#8 = _ from rfl⟩
theorem rorAbs (w : Word) : Statement (.rorAbs w) := ⟨rfl, rfl, fun _ => show opcodeSize 0x6E#8 = _ from rfl⟩
theorem rorAbsx (w : Word) : Statement (.rorAbsx w) := ⟨rfl, rfl, fun _ => show opcodeSize 0x7E#8 = _ from rfl⟩
theorem bitZp (d : Byte) : Statement (.bitZp d) := ⟨rfl, rfl, fun _ => show opcodeSize 0x24#8 = _ from rfl⟩
theorem bitAbs (w : Word) : Statement (.bitAbs w) := ⟨rfl, rfl, fun _ => show opcodeSize 0x2C#8 = _ from rfl⟩
theorem tax : Statement .tax := ⟨rfl, rfl, fun _ => show opcodeSize 0xAA#8 = _ from rfl⟩
theorem tay : Statement .tay := ⟨rfl, rfl, fun _ => show opcodeSize 0xA8#8 = _ from rfl⟩
theorem txa : Statement .txa := ⟨rfl, rfl, fun _ => show opcodeSize 0x8A#8 = _ from rfl⟩
theorem tya : Statement .tya := ⟨rfl, rfl, fun _ => show opcodeSize 0x98#8 = _ from rfl⟩
theorem tsx : Statement .tsx := ⟨rfl, rfl, fun _ => show opcodeSize 0xBA#8 = _ from rfl⟩
theorem txs : Statement .txs := ⟨rfl, rfl, fun _ => show opcodeSize 0x9A#8 = _ from rfl⟩
theorem pha : Statement .pha := ⟨rfl, rfl, fun _ => show opcodeSize 0x48#8 = _ from rfl⟩
theorem php : Statement .php := ⟨rfl, rfl, fun _ => show opcodeSize 0x08#8 = _ from rfl⟩
theorem pla : Statement .pla := ⟨rfl, rfl, fun _ => show opcodeSize 0x68#8 = _ from rfl⟩
theorem plp : Statement .plp := ⟨rfl, rfl, fun _ => show opcodeSize 0x28#8 = _ from rfl⟩
theorem clc : Statement .clc := ⟨rfl, rfl, fun _ => show opcodeSize 0x18#8 = _ from rfl⟩
theorem sec : Statement .sec := ⟨rfl, rfl, fun _ => show opcodeSize 0x38#8 = _ from rfl⟩
theorem cli : Statement .cli := ⟨rfl, rfl, fun _ => show opcodeSize 0x58#8 = _ from rfl⟩
theorem sei : Statement .sei := ⟨rfl, rfl, fun _ => show opcodeSize 0x78#8 = _ from rfl⟩
theorem clv : Statement .clv := ⟨rfl, rfl, fun _ => show opcodeSize 0xB8#8 = _ from rfl⟩
theorem cld : Statement .cld := ⟨rfl, rfl, fun _ => show opcodeSize 0xD8#8 = _ from rfl⟩
theorem sed : Statement .sed := ⟨rfl, rfl, fun _ => show opcodeSize 0xF8#8 = _ from rfl⟩
theorem bpl (d : Byte) : Statement (.bpl d) := ⟨rfl, rfl, fun _ => show opcodeSize 0x10#8 = _ from rfl⟩
theorem bmi (d : Byte) : Statement (.bmi d) := ⟨rfl, rfl, fun _ => show opcodeSize 0x30#8 = _ from rfl⟩
theorem bvc (d : Byte) : Statement (.bvc d) := ⟨rfl, rfl, fun _ => show opcodeSize 0x50#8 = _ from rfl⟩
theorem bvs (d : Byte) : Statement (.bvs d) := ⟨rfl, rfl, fun _ => show opcodeSize 0x70#8 = _ from rfl⟩
theorem bcc (d : Byte) : Statement (.bcc d) := ⟨rfl, rfl, fun _ => show opcodeSize 0x90#8 = _ from rfl⟩
theorem bcs (d : Byte) : Statement (.bcs d) := ⟨rfl, rfl, fun _ => show opcodeSize 0xB0#8 = _ from rfl⟩
theorem bne (d : Byte) : Statement (.bne d) := ⟨rfl, rfl, fun _ => show opcodeSize 0xD0#8 = _ from rfl⟩
theorem beq (d : Byte) : Statement (.beq d) := ⟨rfl, rfl, fun _ => show opcodeSize 0xF0#8 = _ from rfl⟩
theorem jmpAbs (w : Word) : Statement (.jmpAbs w) := ⟨rfl, rfl, fun _ => show opcodeSize 0x4C#8 = _ from rfl⟩
theorem jmpInd (w : Word) : Statement (.jmpInd w) := ⟨rfl, rfl, fun _ => show opcodeSize 0x6C#8 = _ from rfl⟩
theorem jsr (w : Word) : Statement (.jsr w) := ⟨rfl, rfl, fun _ => show opcodeSize 0x20#8 = _ from rfl⟩
theorem rts : Statement .rts := ⟨rfl, rfl, fun _ => show opcodeSize 0x60#8 = _ from rfl⟩
theorem brk : Statement .brk := ⟨rfl, rfl, fun _ => show opcodeSize 0x00#8 = _ from rfl⟩
theorem rti : Statement .rti := ⟨rfl, rfl, fun _ => show opcodeSize 0x40#8 = _ from rfl⟩
theorem nop : Statement .nop := ⟨rfl, rfl, fun _ => show opcodeSize 0xEA#8 = _ from rfl⟩

/-- The opcode map reads each byte R65 lists as undefined. -/
theorem opcodeSize_undefined : ∀ op ∈ undefinedOpcodes, opcodeSize op = 1 := by decide

theorem undefined (op : Byte) : Statement (.undefined op) :=
  ⟨rfl, rfl, fun h => opcodeSize_undefined op (List.contains_iff_mem.mp h)⟩

end Sys2Proof.Laws.EncodedLength
end

