-- ==== Sys2Proof/Tests/Slice0.lean ====
section
/-! SUPPORT. The model's own tests. The expected results are the spec's: 95_test_vectors.md (V-* and W*, each named in
its docstring), the encodings of 30_encoding.md, and the corner cases the rules state. At the end, for each statement of
Certificates/Slice0/Obligations.lean with hypotheses, a witness that meets them. -/

namespace Sys2Proof.Tests

open Sys2Proof Sys2Proof.Machine

/-! ## Helpers -/

/-- The start state of 95_test_vectors.md's conventions. -/
def base : State := State.powerOn 0x00#8 0x00#8 0x00#8 0xFF#8 0x20#8 0x8000#16 []

/-- Bytes in memory, and code at PC. -/
def place (s : State) (cells : List (Word × Byte)) (code : List Byte) : State :=
  { s with mem := (cells.foldl (fun m c => Memory.write m c.1.toNat c.2) s.mem).storeBytes s.pc code }

/-- The registers and the counter at the end of a vector. -/
structure Regs where
  a : Byte
  x : Byte
  y : Byte
  sp : Byte
  p : Byte
  pc : Word
  cycles : Nat
  deriving DecidableEq, Repr

def regs (t : State) : Regs := ⟨t.a, t.x, t.y, t.sp, t.p, t.pc, t.cycles⟩

/-- One step from a start state with bytes in memory and code at PC ends in a next state with these registers, these
bytes and, where given, this trace. -/
def vector (s : State) (cells : List (Word × Byte)) (code : List Byte) (r : Regs) (after : List (Word × Byte))
    (trace : Option (List BusEvent)) : Bool :=
  match step (place s cells code) with
  | .next t => regs t == r && after.all (fun c => t.peek c.1 == c.2) && trace.all (fun tr => t.trace == tr)
  | .fault _ => false
  | .refused _ => false

/-! ## Well-formedness: ill-formed terms are refused -/

/-- The one check: `undefined` must carry a byte the opcode map leaves undefined (EA is NOP, 00 is BRK). -/
theorem test_wf_refusesUndefinedOfADefinedByte :
    (Instr.undefined 0xEA#8).wf = false ∧ (Instr.undefined 0x00#8).wf = false ∧ (Instr.undefined 0x02#8).wf = true ∧
    (Instr.undefined 0x89#8).wf = true := by decide

/-! ## Decoding: words written out from 30_encoding.md, one family after another -/

theorem test_decode_loadsAndStores :
    decode [0xA9#8, 0x05#8] = .ok (.ldaImm 0x05#8, []) ∧ decode [0xB1#8, 0x20#8] = .ok (.ldaIndy 0x20#8, []) ∧
    decode [0xB6#8, 0xFF#8] = .ok (.ldxZpy 0xFF#8, []) ∧ decode [0xBC#8, 0x00#8, 0x20#8] = .ok (.ldyAbsx 0x2000#16, []) ∧
    decode [0x9D#8, 0xFF#8, 0x10#8] = .ok (.staAbsx 0x10FF#16, []) ∧ decode [0x96#8, 0xFF#8] = .ok (.stxZpy 0xFF#8, []) ∧
    decode [0x8C#8, 0x00#8, 0x03#8] = .ok (.styAbs 0x0300#16, []) := ⟨rfl, rfl, rfl, rfl, rfl, rfl, rfl⟩

theorem test_decode_alu :
    decode [0x01#8, 0x10#8] = .ok (.oraIndx 0x10#8, []) ∧ decode [0x35#8, 0x10#8] = .ok (.andZpx 0x10#8, []) ∧
    decode [0x59#8, 0x34#8, 0x12#8] = .ok (.eorAbsy 0x1234#16, []) ∧ decode [0x69#8, 0x01#8] = .ok (.adcImm 0x01#8, []) ∧
    decode [0xF1#8, 0x80#8] = .ok (.sbcIndy 0x80#8, []) ∧ decode [0xCD#8, 0xCD#8, 0xAB#8] = .ok (.cmpAbs 0xABCD#16, []) ∧
    decode [0xE4#8, 0x10#8] = .ok (.cpxZp 0x10#8, []) ∧ decode [0xC0#8, 0x7F#8] = .ok (.cpyImm 0x7F#8, []) :=
  ⟨rfl, rfl, rfl, rfl, rfl, rfl, rfl, rfl⟩

theorem test_decode_incDecShiftBit :
    decode [0xFE#8, 0xFF#8, 0x10#8] = .ok (.incAbsx 0x10FF#16, []) ∧ decode [0xC6#8, 0x10#8] = .ok (.decZp 0x10#8, []) ∧
    decode [0xE8#8] = .ok (.inx, []) ∧ decode [0x88#8] = .ok (.dey, []) ∧ decode [0x0A#8] = .ok (.aslAcc, []) ∧
    decode [0x56#8, 0x10#8] = .ok (.lsrZpx 0x10#8, []) ∧ decode [0x2E#8, 0x00#8, 0x03#8] = .ok (.rolAbs 0x0300#16, []) ∧
    decode [0x6A#8] = .ok (.rorAcc, []) ∧ decode [0x24#8, 0x40#8] = .ok (.bitZp 0x40#8, []) :=
  ⟨rfl, rfl, rfl, rfl, rfl, rfl, rfl, rfl, rfl⟩

theorem test_decode_transferStackFlag :
    decode [0xAA#8] = .ok (.tax, []) ∧ decode [0x98#8] = .ok (.tya, []) ∧ decode [0x9A#8] = .ok (.txs, []) ∧
    decode [0xBA#8] = .ok (.tsx, []) ∧ decode [0x48#8] = .ok (.pha, []) ∧ decode [0x28#8] = .ok (.plp, []) ∧
    decode [0x58#8] = .ok (.cli, []) ∧ decode [0xF8#8] = .ok (.sed, []) := ⟨rfl, rfl, rfl, rfl, rfl, rfl, rfl, rfl⟩

theorem test_decode_control :
    decode [0x10#8, 0xFE#8] = .ok (.bpl 0xFE#8, []) ∧ decode [0xF0#8, 0x7D#8] = .ok (.beq 0x7D#8, []) ∧
    decode [0x4C#8, 0xCD#8, 0xAB#8] = .ok (.jmpAbs 0xABCD#16, []) ∧
    decode [0x6C#8, 0xFF#8, 0x30#8] = .ok (.jmpInd 0x30FF#16, []) ∧
    decode [0x20#8, 0xCD#8, 0xAB#8] = .ok (.jsr 0xABCD#16, []) ∧ decode [0x00#8, 0x77#8] = .ok (.brk, [0x77#8]) ∧
    decode [0x40#8] = .ok (.rti, []) ∧ decode [0xEA#8] = .ok (.nop, []) := ⟨rfl, rfl, rfl, rfl, rfl, rfl, rfl, rfl⟩

/-- The 105 undefined bytes have one byte each; a list that ends before the operand is refused by name. -/
theorem test_decode_undefinedAndShort :
    decode [0x80#8, 0x12#8] = .ok (.undefined 0x80#8, [0x12#8]) ∧ decode [0xFF#8] = .ok (.undefined 0xFF#8, []) ∧
    decode [] = .error .noBytes ∧ decode [0xAD#8, 0x00#8] = .error (.operandMissing 0xAD#8) := ⟨rfl, rfl, rfl, rfl⟩

/-- The opcode map against the table's first and last documented bytes, with the operand bits above the row's 8 zero. -/
theorem test_decodeTableWord :
    decodeTableWord 8 0x00 = some .brk ∧ decodeTableWord 8 0xA9 = some (.ldaImm 0x00#8) ∧
    decodeTableWord 8 0xFE = some (.incAbsx 0x0000#16) ∧ decodeTableWord 8 0x02 = some (.undefined 0x02#8) ∧
    decodeTableWord 24 0xABCD4C = some (.jmpAbs 0xABCD#16) := ⟨rfl, rfl, rfl, rfl, rfl⟩

/-- A word placed where the next step fetches is what the next step runs, right after reset. -/
theorem test_withFetchWord :
    vector (State.reset.withFetchWord 24 0x1234AD) [(0x1234, 0x80)] [] ⟨0x80, 0x00, 0x00, 0xFD, 0x80, 0x0003, 6⟩ [] none
      = true := by decide

/-! ## Steps: the vectors of 95_test_vectors.md -/

/-- V-AM-02 (R89): zp,X wraps in page 0 (base FF, X=1). -/
theorem test_zpxWrapsInPage0 : vector ({ base with x := 0x01#8 }) [(0x0000, 0x11), (0x0100, 0x22)] [0xB5, 0xFF]
    ⟨0x11, 0x01, 0x00, 0xFF, 0x20, 0x8002, 4⟩ [] none = true := by decide

/-- V-AM-05 (R92): abs,X no page cross. -/
theorem test_ldaAbsxNoCross : vector ({ base with x := 0x10#8 }) [(0x4410, 0x02)] [0xBD, 0x00, 0x44]
    ⟨0x02, 0x10, 0x00, 0xFF, 0x20, 0x8003, 4⟩ [] none = true := by decide

/-- V-AM-06 (R98): abs,X page cross, oops = Dead. -/
theorem test_ldaAbsxCross : vector ({ base with x := 0x20#8 }) [(0x4510, 0x03)] [0xBD, 0xF0, 0x44]
    ⟨0x03, 0x20, 0x00, 0xFF, 0x20, 0x8003, 5⟩ [] none = true := by decide

/-- V-AM-08 (R93): abs,Y page cross. -/
theorem test_ldaAbsyCross : vector ({ base with y := 0x01#8 }) [(0x0300, 0x04)] [0xB9, 0xFF, 0x02]
    ⟨0x04, 0x00, 0x01, 0xFF, 0x20, 0x8003, 5⟩ [] none = true := by decide

/-- V-AM-10 (R95): (zp,X), pointer FF takes high byte from 0000. -/
theorem test_ldaIndxPointerWraps :
    vector ({ base with x := 0x01#8 }) [(0x0000, 0x12), (0x00FF, 0x34), (0x1234, 0x06)] [0xA1, 0xFE]
    ⟨0x06, 0x01, 0x00, 0xFF, 0x20, 0x8002, 6⟩ [] none = true := by decide

/-- V-AM-13 (R96): (zp),Y page cross. -/
theorem test_ldaIndyCross :
    vector ({ base with y := 0x10#8 }) [(0x0020, 0xF8), (0x0021, 0x30), (0x3108, 0x09)] [0xB1, 0x20]
    ⟨0x09, 0x00, 0x10, 0xFF, 0x20, 0x8002, 6⟩ [] none = true := by decide

/-- V-AM-14 (R96): (zp),Y pointer at FF wraps to 00. -/
theorem test_ldaIndyPointerWraps : vector base [(0x0000, 0x40), (0x00FF, 0x00), (0x4000, 0x0A)] [0xB1, 0xFF]
    ⟨0x0A, 0x00, 0x00, 0xFF, 0x20, 0x8002, 5⟩ [] none = true := by decide

/-- V-AM-15 (R99): STA abs,X no cross: dummy read at ea itself. -/
theorem test_staAbsxNoCross : vector ({ base with a := 0x5A#8, x := 0x01#8 }) [] [0x9D, 0x00, 0x10]
    ⟨0x5A, 0x01, 0x00, 0xFF, 0x20, 0x8003, 5⟩ [(0x1001, 0x5A)]
    (some [.read 0x8000 0x9D, .read 0x8001 0x00, .read 0x8002 0x10, .read 0x1001 0x00,
      .write 0x1001 0x5A]) = true := by decide

/-- V-AM-16 (R99): STA abs,X cross: dummy read at uncorrected 1000. -/
theorem test_staAbsxCross : vector ({ base with a := 0x5A#8, x := 0x01#8 }) [] [0x9D, 0xFF, 0x10]
    ⟨0x5A, 0x01, 0x00, 0xFF, 0x20, 0x8003, 5⟩ [(0x1100, 0x5A)]
    (some [.read 0x8000 0x9D, .read 0x8001 0xFF, .read 0x8002 0x10, .read 0x1000 0x00,
      .write 0x1100 0x5A]) = true := by decide

/-- V-AM-17 (R99): STA (zp),Y cross: dummy read. -/
theorem test_staIndyCross :
    vector ({ base with a := 0x5B#8, y := 0x10#8 }) [(0x0020, 0xF8), (0x0021, 0x30)] [0x91, 0x20]
    ⟨0x5B, 0x00, 0x10, 0xFF, 0x20, 0x8002, 6⟩ [(0x3108, 0x5B)]
    (some [.read 0x8000 0x91, .read 0x8001 0x20, .read 0x0020 0xF8, .read 0x0021 0x30, .read 0x3008 0x00,
      .write 0x3108 0x5B]) = true := by decide

/-- V-AM-18 (R102): INC abs,X: dummy, read, Dead, write. -/
theorem test_incAbsx : vector ({ base with x := 0x01#8 }) [(0x1100, 0x41)] [0xFE, 0xFF, 0x10]
    ⟨0x00, 0x01, 0x00, 0xFF, 0x20, 0x8003, 7⟩ [(0x1100, 0x42)]
    (some [.read 0x8000 0xFE, .read 0x8001 0xFF, .read 0x8002 0x10, .read 0x1000 0x00, .read 0x1100 0x41,
      .dead, .write 0x1100 0x42]) = true := by decide

/-- V-AM-19 (R94): JMP ($30FF): high byte from 3000. -/
theorem test_jmpIndPageWrap : vector base [(0x3000, 0x50), (0x30FF, 0x80), (0x3100, 0x40)] [0x6C, 0xFF, 0x30]
    ⟨0x00, 0x00, 0x00, 0xFF, 0x20, 0x5080, 5⟩ []
    (some [.read 0x8000 0x6C, .read 0x8001 0xFF, .read 0x8002 0x30, .read 0x30FF 0x80,
      .read 0x3000 0x50]) = true := by decide

/-- V-LS-01 (R120): LDA # zero sets Z. -/
theorem test_ldaImmZero : vector ({ base with a := 0x55#8, p := 0xA0#8 }) [] [0xA9, 0x00]
    ⟨0x00, 0x00, 0x00, 0xFF, 0x22, 0x8002, 2⟩ [] none = true := by decide

/-- V-LS-03 (R120): LDA zp leaves C, V alone. -/
theorem test_ldaZpKeepsCV : vector ({ base with p := 0x61#8 }) [(0x0010, 0x01)] [0xA5, 0x10]
    ⟨0x01, 0x00, 0x00, 0xFF, 0x61, 0x8002, 3⟩ [] none = true := by decide

/-- V-LS-05 (R121): LDX abs,Y cross. -/
theorem test_ldxAbsyCross : vector ({ base with y := 0x01#8 }) [(0x2100, 0x90)] [0xBE, 0xFF, 0x20]
    ⟨0x00, 0x90, 0x01, 0xFF, 0xA0, 0x8003, 5⟩ [] none = true := by decide

/-- V-LS-06 (R122): LDY #80. -/
theorem test_ldyImmNegative : vector base [] [0xA0, 0x80]
    ⟨0x00, 0x00, 0x80, 0xFF, 0xA0, 0x8002, 2⟩ [] none = true := by decide

/-- V-LS-11 (R124): STX zp,Y wraps (FF + 1 = 00). -/
theorem test_stxZpyWraps : vector ({ base with x := 0x07#8, y := 0x01#8 }) [] [0x96, 0xFF]
    ⟨0x00, 0x07, 0x01, 0xFF, 0x20, 0x8002, 4⟩ [(0x0000, 0x07)] none = true := by decide

/-- V-LS-13 (R125): STY zp,X. -/
theorem test_styZpx : vector ({ base with x := 0x05#8, y := 0x42#8 }) [] [0x94, 0x10]
    ⟨0x00, 0x05, 0x42, 0xFF, 0x20, 0x8002, 4⟩ [(0x0015, 0x42)] none = true := by decide

/-- V-ALU-01 (R130): ORA #. -/
theorem test_oraImm : vector ({ base with a := 0xF0#8 }) [] [0x09, 0x0F]
    ⟨0xFF, 0x00, 0x00, 0xFF, 0xA0, 0x8002, 2⟩ [] none = true := by decide

/-- V-ALU-04 (R131): AND zp. -/
theorem test_andZp : vector ({ base with a := 0xFF#8 }) [(0x0010, 0x81)] [0x25, 0x10]
    ⟨0x81, 0x00, 0x00, 0xFF, 0xA0, 0x8002, 3⟩ [] none = true := by decide

/-- V-ALU-06 (R132): EOR with equal value gives Z. -/
theorem test_eorEqualGivesZ : vector ({ base with a := 0x3C#8 }) [] [0x49, 0x3C]
    ⟨0x00, 0x00, 0x00, 0xFF, 0x22, 0x8002, 2⟩ [] none = true := by decide

/-- V-ALU-08 (R133): ADC 50+50: V=1, N=1. -/
theorem test_adcOverflow : vector ({ base with a := 0x50#8 }) [] [0x69, 0x50]
    ⟨0xA0, 0x00, 0x00, 0xFF, 0xE0, 0x8002, 2⟩ [] none = true := by decide

/-- V-ALU-13 (R139): ADC with D=1 is binary (09+01). -/
theorem test_adcIgnoresD : vector ({ base with a := 0x09#8, p := 0x28#8 }) [] [0x69, 0x01]
    ⟨0x0A, 0x00, 0x00, 0xFF, 0x28, 0x8002, 2⟩ [] none = true := by decide

/-- V-ALU-16 (R134): SBC 00-01, C=1. -/
theorem test_sbcBorrows : vector ({ base with p := 0x21#8 }) [] [0xE9, 0x01]
    ⟨0xFF, 0x00, 0x00, 0xFF, 0xA0, 0x8002, 2⟩ [] none = true := by decide

/-- V-ALU-18 (R134): SBC 7F-FF, C=1: V=1, C=0. -/
theorem test_sbcOverflow : vector ({ base with a := 0x7F#8, p := 0x21#8 }) [] [0xE9, 0xFF]
    ⟨0x80, 0x00, 0x00, 0xFF, 0xE0, 0x8002, 2⟩ [] none = true := by decide

/-- V-ALU-21 (R135): CMP A=FF, M=01, cmpCarry=signed. -/
theorem test_cmpSignedClearsCarry : vector ({ base with a := 0xFF#8 }) [] [0xC9, 0x01]
    ⟨0xFF, 0x00, 0x00, 0xFF, 0xA0, 0x8002, 2⟩ [] none = true := by decide

/-- V-ALU-27 (R135): CMP A=7F, M=80, cmpCarry=signed. -/
theorem test_cmpSignedSetsCarry : vector ({ base with a := 0x7F#8 }) [] [0xC9, 0x80]
    ⟨0x7F, 0x00, 0x00, 0xFF, 0xA1, 0x8002, 2⟩ [] none = true := by decide

/-- V-ALU-35 (R136): CPX X=10, M=90, cmpCarry=signed. -/
theorem test_cpxSigned : vector ({ base with x := 0x10#8 }) [] [0xE0, 0x90]
    ⟨0x00, 0x10, 0x00, 0xFF, 0xA1, 0x8002, 2⟩ [] none = true := by decide

/-- V-ALU-37 (R137): CPY Y=80, M=7F, cmpCarry=signed. -/
theorem test_cpySigned : vector ({ base with y := 0x80#8 }) [] [0xC0, 0x7F]
    ⟨0x00, 0x00, 0x80, 0xFF, 0x20, 0x8002, 2⟩ [] none = true := by decide

/-- V-ISB-01 (R150): INC zp FF to 00, C unchanged. -/
theorem test_incZpWraps : vector ({ base with p := 0x21#8 }) [(0x0010, 0xFF)] [0xE6, 0x10]
    ⟨0x00, 0x00, 0x00, 0xFF, 0x23, 0x8002, 5⟩ [(0x0010, 0x00)]
    (some [.read 0x8000 0xE6, .read 0x8001 0x10, .read 0x0010 0xFF, .dead, .write 0x0010 0x00]) = true := by decide

/-- V-ISB-03 (R151): DEC abs 01 to 00. -/
theorem test_decAbs : vector base [(0x0300, 0x01)] [0xCE, 0x00, 0x03]
    ⟨0x00, 0x00, 0x00, 0xFF, 0x22, 0x8003, 6⟩ [(0x0300, 0x00)] none = true := by decide

/-- V-ISB-05 (R152): INX FF to 00. -/
theorem test_inxWraps : vector ({ base with x := 0xFF#8, p := 0x21#8 }) [] [0xE8]
    ⟨0x00, 0x00, 0x00, 0xFF, 0x23, 0x8001, 2⟩ [] none = true := by decide

/-- V-ISB-06 (R153): INY 7F to 80. -/
theorem test_iny : vector ({ base with y := 0x7F#8 }) [] [0xC8]
    ⟨0x00, 0x00, 0x80, 0xFF, 0xA0, 0x8001, 2⟩ [] none = true := by decide

/-- V-ISB-07 (R154): DEX 01 to 00. -/
theorem test_dex : vector ({ base with x := 0x01#8 }) [] [0xCA]
    ⟨0x00, 0x00, 0x00, 0xFF, 0x22, 0x8001, 2⟩ [] none = true := by decide

/-- V-ISB-08 (R155): DEY 00 to FF. -/
theorem test_deyWraps : vector base [] [0x88]
    ⟨0x00, 0x00, 0xFF, 0xFF, 0xA0, 0x8001, 2⟩ [] none = true := by decide

/-- V-ISB-10 (R156): ASL A 80 gives 0, C=1, Z=1. -/
theorem test_aslA : vector ({ base with a := 0x80#8 }) [] [0x0A]
    ⟨0x00, 0x00, 0x00, 0xFF, 0x23, 0x8001, 2⟩ [] none = true := by decide

/-- V-ISB-11 (R156): ASL zp. -/
theorem test_aslZp : vector base [(0x0010, 0x40)] [0x06, 0x10]
    ⟨0x00, 0x00, 0x00, 0xFF, 0xA0, 0x8002, 5⟩ [(0x0010, 0x80)] none = true := by decide

/-- V-ISB-12 (R157): LSR A 01 gives 0, C=1. -/
theorem test_lsrA : vector ({ base with a := 0x01#8, p := 0xA0#8 }) [] [0x4A]
    ⟨0x00, 0x00, 0x00, 0xFF, 0x23, 0x8001, 2⟩ [] none = true := by decide

/-- V-ISB-13 (R157): LSR abs,X FF. -/
theorem test_lsrAbsx : vector ({ base with x := 0x01#8 }) [(0x0301, 0xFF)] [0x5E, 0x00, 0x03]
    ⟨0x00, 0x01, 0x00, 0xFF, 0x21, 0x8003, 7⟩ [(0x0301, 0x7F)] none = true := by decide

/-- V-ISB-14 (R158): ROL A 40 with C=1. -/
theorem test_rolA : vector ({ base with a := 0x40#8, p := 0x21#8 }) [] [0x2A]
    ⟨0x81, 0x00, 0x00, 0xFF, 0xA0, 0x8001, 2⟩ [] none = true := by decide

/-- V-ISB-16 (R158): ROL zp 00 with C=1. -/
theorem test_rolZp : vector ({ base with p := 0x21#8 }) [(0x0010, 0x00)] [0x26, 0x10]
    ⟨0x00, 0x00, 0x00, 0xFF, 0x20, 0x8002, 5⟩ [(0x0010, 0x01)] none = true := by decide

/-- V-ISB-17 (R159): ROR A 01 with C=1. -/
theorem test_rorA : vector ({ base with a := 0x01#8, p := 0x21#8 }) [] [0x6A]
    ⟨0x80, 0x00, 0x00, 0xFF, 0xA1, 0x8001, 2⟩ [] none = true := by decide

/-- V-ISB-19 (R159): ROR abs 02 with C=1. -/
theorem test_rorAbs : vector ({ base with p := 0x21#8 }) [(0x0300, 0x02)] [0x6E, 0x00, 0x03]
    ⟨0x00, 0x00, 0x00, 0xFF, 0xA0, 0x8003, 6⟩ [(0x0300, 0x81)] none = true := by decide

/-- V-ISB-20 (R160): BIT zp A=01 M=C0. -/
theorem test_bitZp : vector ({ base with a := 0x01#8 }) [(0x0040, 0xC0)] [0x24, 0x40]
    ⟨0x01, 0x00, 0x00, 0xFF, 0xE2, 0x8002, 3⟩ [] none = true := by decide

/-- V-ISB-21 (R160): BIT abs A=FF M=3F. -/
theorem test_bitAbs : vector ({ base with a := 0xFF#8, p := 0xE2#8 }) [(0x0300, 0x3F)] [0x2C, 0x00, 0x03]
    ⟨0xFF, 0x00, 0x00, 0xFF, 0x20, 0x8003, 4⟩ [] none = true := by decide

/-- V-TSF-01 (R170): TAX 80. -/
theorem test_tax : vector ({ base with a := 0x80#8 }) [] [0xAA]
    ⟨0x80, 0x80, 0x00, 0xFF, 0xA0, 0x8001, 2⟩ [] none = true := by decide

/-- V-TSF-02 (R171): TAY 00. -/
theorem test_tay : vector ({ base with y := 0x12#8 }) [] [0xA8]
    ⟨0x00, 0x00, 0x00, 0xFF, 0x22, 0x8001, 2⟩ [] none = true := by decide

/-- V-TSF-03 (R172): TXA 7F. -/
theorem test_txa : vector ({ base with x := 0x7F#8 }) [] [0x8A]
    ⟨0x7F, 0x7F, 0x00, 0xFF, 0x20, 0x8001, 2⟩ [] none = true := by decide

/-- V-TSF-04 (R173): TYA FF. -/
theorem test_tya : vector ({ base with y := 0xFF#8 }) [] [0x98]
    ⟨0xFF, 0x00, 0xFF, 0xFF, 0xA0, 0x8001, 2⟩ [] none = true := by decide

/-- V-TSF-05 (R174): TSX. -/
theorem test_tsx : vector ({ base with sp := 0x44#8 }) [] [0xBA]
    ⟨0x00, 0x44, 0x00, 0x44, 0x20, 0x8001, 2⟩ [] none = true := by decide

/-- V-TSF-06 (R175): TXS 00 leaves flags. -/
theorem test_txsKeepsFlags : vector ({ base with p := 0x80#8 }) [] [0x9A]
    ⟨0x00, 0x00, 0x00, 0x00, 0x80, 0x8001, 2⟩ [] none = true := by decide

/-- V-TSF-07 (R176): PHA 00, phaSetsNZ=true. -/
theorem test_phaZero : vector base [] [0x48]
    ⟨0x00, 0x00, 0x00, 0xFE, 0x22, 0x8001, 3⟩ [(0x01FF, 0x00)]
    (some [.read 0x8000 0x48, .dead, .write 0x01FF 0x00]) = true := by decide

/-- V-TSF-09 (R176): PHA at S=00 wraps to FF. -/
theorem test_phaWraps : vector ({ base with a := 0x5A#8, sp := 0x00#8 }) [] [0x48]
    ⟨0x5A, 0x00, 0x00, 0xFF, 0x20, 0x8001, 3⟩ [(0x0100, 0x5A)] none = true := by decide

/-- V-TSF-11 (R177): PHP with bit 5 = 0. -/
theorem test_phpBit5Clear : vector ({ base with p := 0x03#8 }) [] [0x08]
    ⟨0x00, 0x00, 0x00, 0xFE, 0x03, 0x8001, 3⟩ [(0x01FF, 0x03)] none = true := by decide

/-- V-TSF-12 (R178): PLA 80. -/
theorem test_pla : vector ({ base with sp := 0xFE#8 }) [(0x01FF, 0x80)] [0x68]
    ⟨0x80, 0x00, 0x00, 0xFF, 0xA0, 0x8001, 4⟩ []
    (some [.read 0x8000 0x68, .dead, .dead, .read 0x01FF 0x80]) = true := by decide

/-- V-TSF-13 (R178): PLA at S=FF wraps to 0100. -/
theorem test_plaWraps : vector base [(0x0100, 0x00)] [0x68]
    ⟨0x00, 0x00, 0x00, 0x00, 0x22, 0x8001, 4⟩ [] none = true := by decide

/-- V-TSF-14 (R179): PLP C3. -/
theorem test_plp : vector ({ base with sp := 0xFE#8 }) [(0x01FF, 0xC3)] [0x28]
    ⟨0x00, 0x00, 0x00, 0xFF, 0xC3, 0x8001, 4⟩ [] none = true := by decide

/-- V-TSF-15 (R179): PLP 00 clears bit 5 and B. -/
theorem test_plpClearsBit5AndB : vector ({ base with sp := 0xFE#8, p := 0x30#8 }) [(0x01FF, 0x00)] [0x28]
    ⟨0x00, 0x00, 0x00, 0xFF, 0x00, 0x8001, 4⟩ [] none = true := by decide

/-- V-TSF-16 (R180): CLC. -/
theorem test_clc : vector ({ base with p := 0x21#8 }) [] [0x18]
    ⟨0x00, 0x00, 0x00, 0xFF, 0x20, 0x8001, 2⟩ [] none = true := by decide

/-- V-TSF-17 (R181): SEC. -/
theorem test_sec : vector base [] [0x38]
    ⟨0x00, 0x00, 0x00, 0xFF, 0x21, 0x8001, 2⟩ [] none = true := by decide

/-- V-TSF-18 (R182): CLI. -/
theorem test_cli : vector ({ base with p := 0x24#8 }) [] [0x58]
    ⟨0x00, 0x00, 0x00, 0xFF, 0x20, 0x8001, 2⟩ [] none = true := by decide

/-- V-TSF-19 (R183): SEI. -/
theorem test_sei : vector base [] [0x78]
    ⟨0x00, 0x00, 0x00, 0xFF, 0x24, 0x8001, 2⟩ [] none = true := by decide

/-- V-TSF-20 (R184): CLV. -/
theorem test_clv : vector ({ base with p := 0x60#8 }) [] [0xB8]
    ⟨0x00, 0x00, 0x00, 0xFF, 0x20, 0x8001, 2⟩ [] none = true := by decide

/-- V-TSF-21 (R185): CLD. -/
theorem test_cld : vector ({ base with p := 0x28#8 }) [] [0xD8]
    ⟨0x00, 0x00, 0x00, 0xFF, 0x20, 0x8001, 2⟩ [] none = true := by decide

/-- V-TSF-22 (R186): SED. -/
theorem test_sed : vector base [] [0xF8]
    ⟨0x00, 0x00, 0x00, 0xFF, 0x28, 0x8001, 2⟩ [] none = true := by decide

/-- V-CTL-01 (R201): BPL not taken. -/
theorem test_bplNotTaken : vector ({ base with p := 0xA0#8 }) [] [0x10, 0x10]
    ⟨0x00, 0x00, 0x00, 0xFF, 0xA0, 0x8002, 2⟩ [] none = true := by decide

/-- V-CTL-03 (R201): BPL taken backwards to another page. -/
theorem test_bplOtherPage : vector base [] [0x10, 0x80]
    ⟨0x00, 0x00, 0x00, 0xFF, 0x20, 0x7F82, 4⟩ [] none = true := by decide

/-- V-CTL-05 (R202): BMI taken, same page. -/
theorem test_bmiTaken : vector ({ base with p := 0xA0#8 }) [] [0x30, 0x10]
    ⟨0x00, 0x00, 0x00, 0xFF, 0xA0, 0x8012, 3⟩ [] none = true := by decide

/-- V-CTL-09 (R203): BVC taken backwards to another page. -/
theorem test_bvcOtherPage : vector base [] [0x50, 0x80]
    ⟨0x00, 0x00, 0x00, 0xFF, 0x20, 0x7F82, 4⟩ [] none = true := by decide

/-- V-CTL-11 (R204): BVS taken, same page. -/
theorem test_bvsTaken : vector ({ base with p := 0x60#8 }) [] [0x70, 0x10]
    ⟨0x00, 0x00, 0x00, 0xFF, 0x60, 0x8012, 3⟩ [] none = true := by decide

/-- V-CTL-13 (R205): BCC not taken. -/
theorem test_bccNotTaken : vector ({ base with p := 0x21#8 }) [] [0x90, 0x10]
    ⟨0x00, 0x00, 0x00, 0xFF, 0x21, 0x8002, 2⟩ [] none = true := by decide

/-- V-CTL-18 (R206): BCS taken backwards to another page. -/
theorem test_bcsOtherPage : vector ({ base with p := 0x21#8 }) [] [0xB0, 0x80]
    ⟨0x00, 0x00, 0x00, 0xFF, 0x21, 0x7F82, 4⟩ [] none = true := by decide

/-- V-CTL-27 (R200): BNE at FFF0 offset 7F wraps to 0071. -/
theorem test_bneWraps : vector ({ base with pc := 0xFFF0#16 }) [] [0xD0, 0x7F]
    ⟨0x00, 0x00, 0x00, 0xFF, 0x20, 0x0071, 4⟩ [] none = true := by decide

/-- V-CTL-29 (R200): BEQ at 80FD offset 01: target 8100 crosses (PC after = 80FF). -/
theorem test_beqCrosses : vector ({ base with p := 0x22#8, pc := 0x80FD#16 }) [] [0xF0, 0x01]
    ⟨0x00, 0x00, 0x00, 0xFF, 0x22, 0x8100, 4⟩ []
    (some [.read 0x80FD 0xF0, .read 0x80FE 0x01, .dead, .dead]) = true := by decide

/-- V-CTL-30 (R200): BEQ at 80FE offset 00: PC after = 8100, target 8100, no cross. -/
theorem test_beqDoesNotCross : vector ({ base with p := 0x22#8, pc := 0x80FE#16 }) [] [0xF0, 0x00]
    ⟨0x00, 0x00, 0x00, 0xFF, 0x22, 0x8100, 3⟩ []
    (some [.read 0x80FE 0xF0, .read 0x80FF 0x00, .dead]) = true := by decide

/-- V-CTL-31 (R209): JMP abs (source §8 scenario 3). -/
theorem test_jmpAbs : vector base [] [0x4C, 0xCD, 0xAB]
    ⟨0x00, 0x00, 0x00, 0xFF, 0x20, 0xABCD, 3⟩ [] none = true := by decide

/-- V-CTL-34 (R210): JSR at S=00: pushes wrap. -/
theorem test_jsrPushesWrap : vector ({ base with sp := 0x00#8 }) [] [0x20, 0x00, 0x90]
    ⟨0x00, 0x00, 0x00, 0xFE, 0x20, 0x9000, 6⟩ [(0x0100, 0x80), (0x01FF, 0x03)] none = true := by decide

/-- V-CTL-33 (R210): JSR (source §8 scenario 4). -/
theorem test_jsr : vector ({ base with sp := 0x44#8 }) [] [0x20, 0xCD, 0xAB]
    ⟨0x00, 0x00, 0x00, 0x42, 0x20, 0xABCD, 6⟩ [(0x0143, 0x03), (0x0144, 0x80)]
    (some [.read 0x8000 0x20, .read 0x8001 0xCD, .read 0x8002 0xAB, .dead, .write 0x0144 0x80,
      .write 0x0143 0x03]) = true := by decide

/-- V-CTL-35 (R211): RTS, no increment. -/
theorem test_rts : vector ({ base with sp := 0xFD#8, pc := 0x9000#16 }) [(0x01FE, 0x03), (0x01FF, 0x80)] [0x60]
    ⟨0x00, 0x00, 0x00, 0xFF, 0x20, 0x8003, 6⟩ []
    (some [.read 0x9000 0x60, .dead, .dead, .dead, .read 0x01FE 0x03, .read 0x01FF 0x80]) = true := by decide

/-- V-CTL-37 (R212): BRK with P=21, S=FF, vector 9000. -/
theorem test_brk : vector ({ base with p := 0x21#8 }) [(0xFFFE, 0x00), (0xFFFF, 0x90)] [0x00]
    ⟨0x00, 0x00, 0x00, 0xFC, 0x31, 0x9000, 7⟩ [(0x01FD, 0x21), (0x01FE, 0x02), (0x01FF, 0x80)] none = true := by decide

/-- V-CTL-36 (R212): BRK (source §8 scenario 5). -/
theorem test_brkBus : vector base [(0xFFFE, 0xCD), (0xFFFF, 0xAB)] [0x00]
    ⟨0x00, 0x00, 0x00, 0xFC, 0x30, 0xABCD, 7⟩ [(0x01FD, 0x20), (0x01FE, 0x02), (0x01FF, 0x80)]
    (some [.read 0x8000 0x00, .dead, .write 0x01FF 0x80, .write 0x01FE 0x02, .write 0x01FD 0x20,
      .read 0xFFFE 0xCD, .read 0xFFFF 0xAB]) = true := by decide

/-- V-CTL-39 (R213): RTI restores P=21 and PC=8002. -/
theorem test_rti :
    vector ({ base with sp := 0xFC#8, p := 0x31#8, pc := 0x9000#16 }) [(0x01FD, 0x21), (0x01FE, 0x02), (0x01FF, 0x80)] [0x40]
    ⟨0x00, 0x00, 0x00, 0xFF, 0x21, 0x8002, 6⟩ []
    (some [.read 0x9000 0x40, .dead, .read 0x01FD 0x21, .dead, .read 0x01FE 0x02,
      .read 0x01FF 0x80]) = true := by decide

/-- V-CTL-40 (R213): RTI loads bit 5 = 0. -/
theorem test_rtiBit5 :
    vector ({ base with sp := 0xFC#8, pc := 0x9000#16 }) [(0x01FD, 0x00), (0x01FE, 0x00), (0x01FF, 0x80)] [0x40]
    ⟨0x00, 0x00, 0x00, 0xFF, 0x00, 0x8000, 6⟩ [] none = true := by decide

/-- V-CTL-41 (R214): NOP. -/
theorem test_nop : vector ({ base with a := 0x12#8, x := 0x34#8, p := 0xE3#8 }) [] [0xEA]
    ⟨0x12, 0x34, 0x00, 0xFF, 0xE3, 0x8001, 2⟩ [] none = true := by decide

/-! ## The other values of the parameters -/

/-- V-ALU-22, 24, 26, 28: the unsigned carry rule of a compare. -/
theorem test_compareCarryUnsigned :
    compareCarry .unsigned 0xFF#8 0x01#8 = true ∧ compareCarry .unsigned 0x01#8 0xFF#8 = false ∧
    compareCarry .unsigned 0x80#8 0x01#8 = true ∧ compareCarry .unsigned 0x7F#8 0x80#8 = false := by decide

/-- V-AM-06 and V-AM-07: the oops cycle is a dead cycle, or a read of the uncorrected address. -/
theorem test_oopsCycle :
    (oopsCycle false 0x4410#16 (place base [(0x4410, 0x99)] [])).trace = [.dead] ∧
    (oopsCycle true 0x4410#16 (place base [(0x4410, 0x99)] [])).trace = [.read 0x4410#16 0x99#8] := by decide

/-- R139: under `decimalPolicy = refuse` ADC and SBC have no meaning with D = 1. -/
theorem test_decimalRefused :
    arithOutcome .refuse (base.setFlag .d true) base = .refused .decimalMode ∧
    arithOutcome .refuse base base = .next base := ⟨rfl, rfl⟩

/-! ## Faults, reset, absent memory -/

/-- V-FAULT and V-FAULT-2 (R231, R232). -/
theorem test_fault :
    step (place base [] [0x02]) = .fault (.undefinedOpcode 0x02#8 0x8000#16
      { place base [] [0x02] with
        pc := 0x8001#16, cycles := 1, trace := [.read 0x8000#16 0x02#8], faulted := some (0x02#8, 0x8000#16) }) ∧
    performAll [.step, .step] (place base [] [0x02]) = performAll [.step] (place base [] [0x02]) := ⟨rfl, rfl⟩

/-- V-FAULT-3 (R232, R260): reset clears the fault; the next step runs. -/
theorem test_faultThenReset :
    regs (performAll [.step, .step, .writeMemory 0x8000#16 0xEA#8, .writeMemory 0xFFFD#16 0x80#8, .reset, .step]
      (place base [] [0x02])) = ⟨0x00, 0x00, 0x00, 0xFC, 0x20, 0x8001, 5⟩ := by decide

/-- V-RST-1 (R260). -/
theorem test_reset :
    let t := resetCommand (place (State.powerOn 0x12#8 0x34#8 0x56#8 0x00#8 0xFF#8 0x1234#16 []) [(0xFFFD, 0x80)] [])
    regs t = ⟨0x12, 0x34, 0x56, 0xFD, 0xFF, 0x8000, 2⟩ ∧
    t.trace = [.read 0xFFFC#16 0x00#8, .read 0xFFFD#16 0x80#8] := by decide

/-- V-RST-3 (R263). -/
theorem test_resetMemoryAbsent :
    regs (resetCommand (dropMemory (State.powerOn 0x00#8 0x00#8 0x00#8 0x10#8 0x20#8 0x4000#16 [(0xFFFD, 0x80#8)]))) =
      ⟨0x00, 0x00, 0x00, 0x0D, 0x20, 0x0000, 2⟩ := by decide

/-- V-ABS-1 (R44): with memory absent a step is BRK. -/
theorem test_memoryAbsent :
    vector (dropMemory { base with pc := 0x4000#16 }) [(0x4000, 0xEA)] [] ⟨0x00, 0x00, 0x00, 0xFC, 0x30, 0x0000, 7⟩ []
      (some [.read 0x4000 0x00, .dead, .write 0x01FF 0x40, .write 0x01FE 0x02, .write 0x01FD 0x20,
        .read 0xFFFE 0x00, .read 0xFFFF 0x00]) = true := by decide

/-- R50: the stack peek at S = FF reads 0x0100, with no cycle and no event. -/
theorem test_stackPeek : stackPeek (place base [(0x0100, 0x5A)] []) = 0x5A#8 := by decide

/-- The canonical form: writing what an unlisted address reads as removes the entry; entries stay in order. -/
theorem test_memoryCanonical :
    Memory.write (Memory.write [] 0x20 0x01#8) 0x20 0x00#8 = [] ∧
    Memory.write (Memory.write [] 0x20 0x01#8) 0x10 0x02#8 = [(0x10, 0x02#8), (0x20, 0x01#8)] ∧
    Memory.wf [(0x20, 0x01#8), (0x10, 0x02#8)] = false ∧ Memory.wf [(0x10000, 0x01#8)] = false ∧
    Memory.wf [(0x10, 0x00#8)] = false := by decide

/-! ## Witnesses: for each statement with hypotheses, a state and operands that meet all of them -/

theorem test_witness_DecodeReadsBackEncode :
    (Instr.jmpAbs 0xFFFF#16).wf = true ∧ (Instr.ldaIndy 0xFF#8).wf = true ∧ (Instr.undefined 0xFF#8).wf = true := by decide

theorem test_witness_EncodeWritesBackDecode :
    decode [0x6C#8, 0xFF#8, 0xFF#8, 0xEA#8] = .ok (.jmpInd 0xFFFF#16, [0xEA#8]) := rfl

/-- One opcode of each of the formats: F1 (A and implied), F2 (immediate, relative, the five zero-page modes), F3. -/
theorem test_witness_OperandsAreAssembledByFormat :
    (∃ i, decode [0x0A#8, 0xFF#8, 0x00#8] = .ok (i, [0xFF#8, 0x00#8]) ∧ i.operand = .acc) ∧
    (∃ i, decode [0xEA#8, 0xFF#8, 0x00#8] = .ok (i, [0xFF#8, 0x00#8]) ∧ i.operand = .imp) ∧
    (∃ i, decode [0xA9#8, 0xFF#8, 0x00#8] = .ok (i, [0x00#8]) ∧ i.operand = .imm 0xFF#8) ∧
    (∃ i, decode [0x10#8, 0xFF#8, 0x00#8] = .ok (i, [0x00#8]) ∧ i.operand = .rel 0xFF#8) ∧
    (∃ i, decode [0xA5#8, 0xFF#8, 0x00#8] = .ok (i, [0x00#8]) ∧ i.operand = .mem (.zp 0xFF#8)) ∧
    (∃ i, decode [0xB5#8, 0xFF#8, 0x00#8] = .ok (i, [0x00#8]) ∧ i.operand = .mem (.zpx 0xFF#8)) ∧
    (∃ i, decode [0xB6#8, 0xFF#8, 0x00#8] = .ok (i, [0x00#8]) ∧ i.operand = .mem (.zpy 0xFF#8)) ∧
    (∃ i, decode [0xA1#8, 0xFF#8, 0x00#8] = .ok (i, [0x00#8]) ∧ i.operand = .mem (.indx 0xFF#8)) ∧
    (∃ i, decode [0xB1#8, 0xFF#8, 0x00#8] = .ok (i, [0x00#8]) ∧ i.operand = .mem (.indy 0xFF#8)) ∧
    (∃ i, decode [0xAD#8, 0xFF#8, 0x00#8] = .ok (i, []) ∧ i.operand = .mem (.abs 0x00FF#16)) ∧
    (∃ i, decode [0xBD#8, 0xFF#8, 0x00#8] = .ok (i, []) ∧ i.operand = .mem (.absx 0x00FF#16)) ∧
    (∃ i, decode [0xB9#8, 0xFF#8, 0x00#8] = .ok (i, []) ∧ i.operand = .mem (.absy 0x00FF#16)) ∧
    ∃ i, decode [0x6C#8, 0xFF#8, 0x00#8] = .ok (i, []) ∧ i.operand = .ind 0x00FF#16 :=
  ⟨⟨_, rfl, rfl⟩, ⟨_, rfl, rfl⟩, ⟨_, rfl, rfl⟩, ⟨_, rfl, rfl⟩, ⟨_, rfl, rfl⟩, ⟨_, rfl, rfl⟩, ⟨_, rfl, rfl⟩, ⟨_, rfl, rfl⟩,
   ⟨_, rfl, rfl⟩, ⟨_, rfl, rfl⟩, ⟨_, rfl, rfl⟩, ⟨_, rfl, rfl⟩, ⟨_, rfl, rfl⟩⟩

/-- A one-byte instruction at the top of the address space, and a three-byte one whose operand wraps to address 0. -/
theorem test_witness_StepRunsTheDecodedInstruction :
    (∃ s : State, s.faulted = none ∧ s.pc = 0xFFFF#16 ∧
      decode [s.peek s.pc, s.peek (s.pc + 1#16), s.peek (s.pc + 2#16)] = .ok (.nop, [0x00#8, 0x00#8])) ∧
    ∃ s : State, s.faulted = none ∧ s.pc = 0xFFFE#16 ∧
      decode [s.peek s.pc, s.peek (s.pc + 1#16), s.peek (s.pc + 2#16)] = .ok (.jmpAbs 0xABCD#16, []) :=
  ⟨⟨place { base with pc := 0xFFFF#16 } [] [0xEA#8], rfl, rfl, rfl⟩,
   ⟨place { base with pc := 0xFFFE#16 } [] [0x4C#8, 0xCD#8, 0xAB#8], rfl, rfl, rfl⟩⟩

/-- The same two, with the step that StepTakesTheCyclesOfTheTable also assumes. -/
theorem test_witness_StepTakesTheCyclesOfTheTable :
    ∃ (s t : State), s.faulted = none ∧
      decode [s.peek s.pc, s.peek (s.pc + 1#16), s.peek (s.pc + 2#16)] = .ok (.nop, [0x00#8, 0x00#8]) ∧
      step s = .next t := ⟨place base [] [0xEA#8], _, rfl, rfl, rfl⟩

theorem test_witness_DocumentedInstructionsComplete : Instr.brk.operation ≠ .undefined := by decide

theorem test_witness_UndefinedOpcodeEndsTheStep :
    (∃ s : State, s.faulted = none ∧ s.peek s.pc = 0x02#8 ∧ s.peek s.pc ∈ undefinedOpcodes) ∧
    ∃ s : State, s.faulted = none ∧ s.peek s.pc = 0xFF#8 ∧ s.peek s.pc ∈ undefinedOpcodes :=
  ⟨⟨place base [] [0x02#8], by decide⟩, ⟨place base [] [0xFF#8], by decide⟩⟩

theorem test_witness_FaultedStepRepeatsTheFault :
    ∃ s : State, s.faulted = some (0x02#8, 0xFFFF#16) := ⟨{ base with faulted := some (0x02#8, 0xFFFF#16) }, rfl⟩

theorem test_witness_FaultLastsUntilReset :
    ∃ s : State, s.faulted = some (0x02#8, 0xFFFF#16) ∧
      HostAction.reset ∉ [HostAction.step, .writeMemory 0xFFFF#16 0xEA#8, .writeP 0x00#8, .step] :=
  ⟨{ base with faulted := some (0x02#8, 0xFFFF#16) }, rfl, by decide⟩

/-- A step that ends in a next state and one that ends in a fault, each from a state with no recorded fault (also for
CounterAndTraceInfluenceNothing). -/
theorem test_witness_CyclesAreTheBusEventsOfTheStep :
    (∃ s t : State, s.faulted = none ∧ step s = .next t) ∧
    ∃ s t : State, s.faulted = none ∧ step s = .fault (.undefinedOpcode 0x02#8 0x8000#16 t) :=
  ⟨⟨place base [] [0xEA#8], _, rfl, rfl⟩, ⟨place base [] [0x02#8], _, rfl, rfl⟩⟩

/-- A state that meets the invariant, with a step to a next state, and one with a step to a fault. -/
theorem test_witness_StepKeepsTheInvariant :
    (∃ s t : State, Invariant s ∧ step s = .next t) ∧
    ∃ s t : State, Invariant s ∧ step s = .fault (.undefinedOpcode 0x02#8 0x8000#16 t) :=
  ⟨⟨place base [] [0xEA#8], _, ⟨by decide, by decide, fun _ _ h => nomatch h⟩, rfl⟩,
   ⟨place base [] [0x02#8], _, ⟨by decide, by decide, fun _ _ h => nomatch h⟩, rfl⟩⟩

theorem test_witness_ReachableStatesMeetTheInvariant :
    Reachable (performAll [.step, .writeX 0xFF#8, .reset] base) :=
  ⟨0x00#8, 0x00#8, 0x00#8, 0xFF#8, 0x20#8, 0x8000#16, [], _, by decide, rfl⟩

theorem test_witness_AbsentMemoryStaysAbsent : (dropMemory base).memPresent = false := rfl

/-- For each clause of the writers' statements, an instruction that completes and is outside the list. -/
theorem test_witness_RegistersHaveTheListedWriters :
    ∃ s t : State, exec (.aslZp 0xFF#8) s = .next t ∧ writesA (.aslZp 0xFF#8) = false ∧
      (Instr.aslZp 0xFF#8).operation ∉ writersOfX ∧ (Instr.aslZp 0xFF#8).operation ∉ writersOfY ∧
      (Instr.aslZp 0xFF#8).operation ∉ writersOfS := ⟨base, _, rfl, by decide⟩

theorem test_witness_FlagsHaveTheListedWriters :
    ∃ s t : State, exec (.staZp 0xFF#8) s = .next t ∧
      ∀ f ∈ allFlags, (Instr.staZp 0xFF#8).operation ∉ writersOfFlag f := ⟨base, _, rfl, by decide⟩

theorem test_witness_MemoryHasTheListedWriters :
    ∃ s t : State, exec .aslAcc s = .next t ∧ writesMemory .aslAcc = false := ⟨base, _, rfl, rfl⟩

/-- Memory in canonical form, present and absent, with S at both ends of the stack page: the hypotheses of
BusReadsAndWrites, PushAndPull, StackIsLastInFirstOut, HostPortsWriteOneThing, PhaPushesA, PhpPushesPAsStored,
JsrPushesTheNextAddress, RtsReturnsFromJsr, BrkEntersTheTrap and RtiUndoesBrk. -/
theorem test_witness_stack :
    (base.mem.wf = true ∧ base.memPresent = true ∧ base.sp = 0xFF#8) ∧
    ({ base with sp := 0x00#8 }.mem.wf = true ∧ { base with sp := 0x00#8 }.memPresent = true) ∧
    ((dropMemory base).mem.wf = true ∧ (dropMemory base).memPresent = false) := by decide

/-- The most bytes that come back: 256. -/
theorem test_witness_StackIsLastInFirstOut :
    base.mem.wf = true ∧ base.memPresent = true ∧ (List.replicate 256 0x5A#8).length ≤ 256 :=
  ⟨rfl, rfl, Nat.le_of_eq List.length_replicate⟩

theorem test_witness_AbsentMemoryStepTakesTheTrap :
    ∃ s : State, s.faulted = none ∧ s.memPresent = false ∧ s.pc = 0xFFFF#16 :=
  ⟨dropMemory { base with pc := 0xFFFF#16 }, rfl, rfl, rfl⟩

/-- An instruction of each class on memory. -/
theorem test_witness_MemoryInstructionsFollowTheBusTemplate :
    ((Instr.ldaAbsx 0xFFFF#16).operand = .mem (.absx 0xFFFF#16) ∧ (Instr.ldaAbsx 0xFFFF#16).operation.opClass = some .r) ∧
    ((Instr.stxZpy 0xFF#8).operand = .mem (.zpy 0xFF#8) ∧
      ((Instr.stxZpy 0xFF#8).operation, Reg.x) ∈ [(Operation.sta, Reg.a), (.stx, .x), (.sty, .y)]) ∧
    ((Instr.incAbsx 0xFFFF#16).operand = .mem (.absx 0xFFFF#16) ∧
      (Instr.incAbsx 0xFFFF#16).operation.opClass = some .m) := by decide

theorem test_witness_LoadsCopyTheOperand :
    ((Instr.ldaIndy 0xFF#8).operation, Reg.a) ∈ [(Operation.lda, Reg.a), (.ldx, .x), (.ldy, .y)] ∧
    ((Instr.ldxImm 0x00#8).operation, Reg.x) ∈ [(Operation.lda, Reg.a), (.ldx, .x), (.ldy, .y)] ∧
    ((Instr.ldyAbsx 0xFFFF#16).operation, Reg.y) ∈ [(Operation.lda, Reg.a), (.ldx, .x), (.ldy, .y)] := by decide

theorem test_witness_StoresWriteTheRegister :
    base.mem.wf = true ∧
    ((Instr.staIndy 0xFF#8).operation, Reg.a) ∈ [(Operation.sta, Reg.a), (.stx, .x), (.sty, .y)] ∧
    ((Instr.stxZp 0x00#8).operation, Reg.x) ∈ [(Operation.sta, Reg.a), (.stx, .x), (.sty, .y)] ∧
    ((Instr.styAbs 0xFFFF#16).operation, Reg.y) ∈ [(Operation.sta, Reg.a), (.stx, .x), (.sty, .y)] := by decide

theorem test_witness_LogicCombinesAWithTheOperand :
    ((Instr.oraImm 0xFF#8).operation, base.a ||| sourceByte (.oraImm 0xFF#8) base) ∈
      [(Operation.ora, base.a ||| sourceByte (.oraImm 0xFF#8) base), (.and, base.a &&& sourceByte (.oraImm 0xFF#8) base),
       (.eor, base.a ^^^ sourceByte (.oraImm 0xFF#8) base)] := by decide

/-- ADC, SBC (also for DecimalFlagChangesNoArithmetic), BIT. -/
theorem test_witness_arithmetic :
    (Instr.adcImm 0xFF#8).operation = .adc ∧ (Instr.sbcAbsy 0xFFFF#16).operation = .sbc ∧
    (Instr.bitZp 0xFF#8).operation = .bit := by decide

theorem test_witness_ComparesSetCarryBySignedOrder :
    ((Instr.cmpImm 0x80#8).operation, Reg.a) ∈ [(Operation.cmp, Reg.a), (.cpx, .x), (.cpy, .y)] ∧
    ((Instr.cpxZp 0xFF#8).operation, Reg.x) ∈ [(Operation.cmp, Reg.a), (.cpx, .x), (.cpy, .y)] ∧
    ((Instr.cpyAbs 0xFFFF#16).operation, Reg.y) ∈ [(Operation.cmp, Reg.a), (.cpx, .x), (.cpy, .y)] := by decide

/-- For ModifiesRewriteTheByte and AccumulatorShiftsRewriteA. -/
theorem test_witness_modify :
    (base.mem.wf = true ∧ (Instr.rorAbsx 0xFFFF#16).operation.opClass = some .m ∧
      (Instr.rorAbsx 0xFFFF#16).operand = .mem (.absx 0xFFFF#16)) ∧
    (Instr.rolAcc.operation.opClass = some .m ∧ Instr.rolAcc.operand = .acc) := by decide

theorem test_witness_IndexRegistersCountModulo256 :
    (Instr.inx, Reg.x, 1) ∈ [(Instr.inx, Reg.x, 1), (.iny, .y, 1), (.dex, .x, 255), (.dey, .y, 255)] ∧
    (Instr.dey, Reg.y, 255) ∈ [(Instr.inx, Reg.x, 1), (.iny, .y, 1), (.dex, .x, 255), (.dey, .y, 255)] := by decide

theorem test_witness_TransfersCopyARegister :
    (Instr.tsx, Reg.s, Reg.x) ∈
      [(Instr.tax, Reg.a, Reg.x), (.tay, .a, .y), (.txa, .x, .a), (.tya, .y, .a), (.tsx, .s, .x)] := by decide

theorem test_witness_FlagInstructionsWriteOneFlag :
    (Instr.sed, Flag.d, true, 0xF8#8) ∈ [(Instr.clc, Flag.c, false, 0x18#8), (.sec, .c, true, 0x38#8),
      (.cli, .i, false, 0x58#8), (.sei, .i, true, 0x78#8), (.clv, .v, false, 0xB8#8), (.cld, .d, false, 0xD8#8),
      (.sed, .d, true, 0xF8#8)] := by decide

/-- A branch of each flag, taken and not taken. -/
theorem test_witness_BranchesAreTakenOnTheirFlag :
    branchCondition (Instr.bpl 0x80#8).operation = some (.n, false) ∧
    branchCondition (Instr.bvs 0x7F#8).operation = some (.v, true) ∧
    branchCondition (Instr.bcc 0xFE#8).operation = some (.c, false) ∧
    branchCondition (Instr.beq 0x00#8).operation = some (.z, true) ∧
    base.flag .n = false ∧ base.flag .v = false := by decide

end Sys2Proof.Tests
end

section
/-! SUPPORT. The bus and the stack primitives (20_memory.md): what a write does to each byte of memory, the stack
locations as numbers, and the frames of push and pull; then the statements BusReadsAndWrites and PushAndPull. -/

namespace Sys2Proof.Machine

/-! ## The bus -/

/-- Where Memory is present, a write is seen at its own address and at no other (20_memory.md R41, R43). -/
theorem memWrite_read {addr : Word} {v : Byte} {s : State} (hwf : s.mem.wf = true) (hp : s.memPresent = true)
    (other : Word) :
    (memWrite addr v s).mem.read other.toNat = if other = addr then v else s.mem.read other.toNat := by
  rw [memWrite_mem, if_pos hp]
  split
  · next heq => rw [heq, Memory.read_write_same v hwf]
  · next hne => exact Memory.read_write_other v s.mem fun e => hne (BitVec.eq_of_toNat_eq e)

/-- A write changes memory, the trace and the counter, and no other field (R43). -/
theorem memWrite_eq_update (addr : Word) (v : Byte) (s : State) :
    memWrite addr v s = { s with
      mem := (memWrite addr v s).mem, trace := s.trace ++ [.write addr v], cycles := s.cycles + 1 } := by
  unfold memWrite
  split <;> rfl

/-- Settles O22: the read is its definition; the write is the two laws of memory where Memory is present, and an event
alone where it is absent. -/
theorem busReadsAndWrites : Obligations.BusReadsAndWrites := by
  intro addr v s hwf
  refine ⟨rfl, memWrite_read hwf, fun habs => ?_, _, memWrite_eq_update addr v s⟩
  rw [memWrite_absent habs, State.emit_mem]

/-! ## The stack -/

theorem stackAddr_eq_ofNat (sp : Byte) : stackAddr sp = BitVec.ofNat 16 (0x0100 + sp.toNat) := by
  rw [← stackAddr_toNat, BitVec.ofNat_toNat, BitVec.setWidth_eq]

/-- The stack location above S, which wraps in page 0x01 (R49). -/
theorem stackAddr_succ_eq_ofNat (sp : Byte) :
    stackAddr (sp + 1#8) = BitVec.ofNat 16 (0x0100 + (sp.toNat + 1) % 256) := by
  rw [stackAddr_eq_ofNat, BitVec.toNat_add, BitVec.toNat_ofNat]

theorem push_reg {r : Reg} (v : Byte) (s : State) (h : r ≠ .s) : (push v s).reg r = s.reg r := by
  cases r with
  | a => exact push_a v s
  | x => exact push_x v s
  | y => exact push_y v s
  | s => exact absurd rfl h

/-- A push changes S and the byte at the stack location, and nothing else that `Frame` speaks of (R48). -/
theorem push_frame (v : Byte) (s : State) : Frame [.s] [] [stackAddr s.sp] s (push v s) :=
  ⟨fun _ hr => push_reg v s (List.ne_of_not_mem_cons hr), fun f _ => push_flag v s f,
    fun _ haddr => push_peek_other (List.ne_of_not_mem_cons haddr), push_memPresent v s, push_faulted v s⟩

/-- A pull changes S, and nothing else that `Frame` speaks of (R49). -/
theorem pull_frame (s : State) : Frame [.s] [] [] s (pull s).2 := by
  refine ⟨fun r hr => ?_, fun _ _ => rfl, fun _ _ => rfl, rfl, rfl⟩
  cases r with
  | a => rfl
  | x => rfl
  | y => rfl
  | s => exact absurd rfl (List.ne_of_not_mem_cons hr)

/-- Settles O23: the laws of push and pull, with the stack locations written as numbers. -/
theorem pushAndPull : Obligations.PushAndPull := by
  intro v s hwf
  rw [← stackAddr_eq_ofNat, ← stackAddr_succ_eq_ofNat]
  constructor
  · have hsp : (push v s).sp.toNat = (s.sp.toNat + 255) % 256 := by
      rw [push_sp, BitVec.toNat_sub, Nat.add_comm]; rfl
    exact ⟨_, rfl, hsp, push_peek_same v hwf, push_pc v s, push_cycles v s, push_trace v s, push_frame v s⟩
  · exact ⟨_, _, rfl, BitVec.toNat_add _ _, rfl, rfl, rfl, rfl, pull_frame s⟩

end Sys2Proof.Machine
end

section
/-! SUPPORT. The sequencer (40_sequencer_addressing.md): each bus event of a step is one cycle, and the fetch of an
instruction's own bytes; then the statements CyclesAreTheBusEventsOfTheStep and StepRunsTheDecodedInstruction. -/

namespace Sys2Proof.Machine

/-! ## Cycles are bus events -/

/-- Whatever follows from a state whose counter is `n` and one for each event of its trace has such a counter too. -/
theorem Follows.cycles_eq_add_length {s t : State} {n : Nat} (h : Follows s t)
    (hs : s.cycles = n + s.trace.length) : t.cycles = n + t.trace.length := by
  obtain ⟨es, htrace, hcycles⟩ := h.events
  rw [hcycles, htrace, hs, List.length_append, Nat.add_assoc]

/-- The fetch is bus events and writes of PC (R83). -/
theorem fetchInstr_follows (s : State) : Follows s (fetchInstr s).2 := by
  rw [fetchInstr_eq]
  exact (Follows.emit _ s).trans (Follows.setPc _ _)

/-- After the fetch of a new step, the counter has one more for each event of the step's trace (R80, R81). -/
theorem fetchInstr_clearTrace_cycles (s : State) :
    (fetchInstr s.clearTrace).2.cycles = s.cycles + (fetchInstr s.clearTrace).2.trace.length :=
  (fetchInstr_follows s.clearTrace).cycles_eq_add_length rfl

theorem step_next_cycles {s t : State} (hrun : s.faulted = none) (h : step s = .next t) :
    t.cycles = s.cycles + t.trace.length := by
  rw [step_of_running hrun] at h
  exact (exec_follows h).cycles_eq_add_length (fetchInstr_clearTrace_cycles s)

/-- A fault leaves the state after the fetch with the fault recorded, so the fetch is all that has been counted
(60_exceptions.md R231). -/
theorem step_fault_cycles {s t : State} {op : Byte} {addr : Word} (hrun : s.faulted = none)
    (h : step s = .fault (.undefinedOpcode op addr t)) : t.cycles = s.cycles + t.trace.length := by
  rw [step_of_running hrun] at h
  obtain ⟨_, _, hfault⟩ := exec_fault h
  obtain ⟨-, -, rfl⟩ := Fault.undefinedOpcode.inj hfault
  exact fetchInstr_clearTrace_cycles s

/-- Settles O11: the fetch and every meaning only follow by bus events and named writes, and each event is one cycle. -/
theorem cyclesAreTheBusEventsOfTheStep : Obligations.CyclesAreTheBusEventsOfTheStep :=
  ⟨fun _ _ => step_next_cycles, fun _ _ _ _ => step_fault_cycles,
    fun s => ⟨rfl, fun addr v => ⟨rfl, rfl, memWrite_trace addr v s, memWrite_cycles addr v s⟩⟩⟩

/-! ## The fetch -/

/-- The operand bytes do not enter the length of what an opcode byte decodes to (30_encoding.md R69): each row of
R63's table, cell by cell. -/
theorem decodeOpcode_size (op d : Byte) (w : Word) : (decodeOpcode op d w).size = opcodeSize op := by
  unfold opcodeSize decodeOpcode
  split
  case h_1 => unfold decodeRow0; split <;> rfl
  case h_2 => unfold decodeRow1; split <;> rfl
  case h_3 => unfold decodeRow2; split <;> rfl
  case h_4 => unfold decodeRow3; split <;> rfl
  case h_5 => unfold decodeRow4; split <;> rfl
  case h_6 => unfold decodeRow5; split <;> rfl
  case h_7 => unfold decodeRow6; split <;> rfl
  case h_8 => unfold decodeRow7; split <;> rfl
  case h_9 => unfold decodeRow8; split <;> rfl
  case h_10 => unfold decodeRow9; split <;> rfl
  case h_11 => unfold decodeRowA; split <;> rfl
  case h_12 => unfold decodeRowB; split <;> rfl
  case h_13 => unfold decodeRowC; split <;> rfl
  case h_14 => unfold decodeRowD; split <;> rfl
  case h_15 => unfold decodeRowE; split <;> rfl
  case h_16 => unfold decodeRowF; split <;> rfl

/-- What three bytes decode to, by the length their opcode byte gives (R60, R69). -/
theorem decode_three (op b1 b2 : Byte) : ∃ rest, decode [op, b1, b2] =
    .ok (decodeOpcode op (if opcodeSize op = 2 then b1 else 0#8)
      (if opcodeSize op = 3 then w16 b2 b1 else 0#16), rest) := by
  rcases opcodeSize_cases op with h | h | h
  · exact ⟨[b1, b2], by simp [decode, h]⟩
  · exact ⟨[b2], by simp [decode, h]⟩
  · exact ⟨[], by simp [decode, h]⟩

/-- The events of a fetch are the reads at the addresses from the first, in order, wrapping (R83). -/
theorem fetchEvents_eq_map (n : Nat) (addr : Word) (s : State) :
    fetchEvents n addr s = (List.range n).map fun k =>
      .read (addr + BitVec.ofNat 16 k) (s.peek (addr + BitVec.ofNat 16 k)) := by
  induction n generalizing addr with
  | zero => rfl
  | succ n ih =>
    have haddr (k : Nat) : addr + 1#16 + BitVec.ofNat 16 k = addr + BitVec.ofNat 16 (k + 1) := by
      rw [BitVec.add_assoc, ← BitVec.ofNat_add, Nat.add_comm]
    simp only [fetchEvents, ih, haddr, List.range_succ_eq_map, List.map_cons, List.map_map, Function.comp_def,
      BitVec.add_zero, Nat.succ_eq_add_one]

/-- The state a new step's fetch of `n` bytes leaves, field by field. -/
theorem clearTrace_emit_fetchEvents (n : Nat) (s : State) :
    (s.clearTrace.emit (fetchEvents n s.pc s.clearTrace)).setPc (s.pc + BitVec.ofNat 16 n) = { s with
      pc := s.pc + BitVec.ofNat 16 n
      cycles := s.cycles + n
      trace := (List.range n).map fun k =>
        .read (s.pc + BitVec.ofNat 16 k) (s.peek (s.pc + BitVec.ofNat 16 k)) } := by
  simp [fetchEvents_eq_map, State.emit, State.setPc, State.clearTrace, State.peek]

/-- The fetch of a new step gives the instruction that the bytes at PC decode to, and the state in which the reads of
its own bytes have happened (R83). -/
theorem fetchInstr_clearTrace_of_decode {s : State} {i : Instr} {rest : List Byte}
    (h : decode [s.peek s.pc, s.peek (s.pc + 1#16), s.peek (s.pc + 2#16)] = .ok (i, rest)) :
    fetchInstr s.clearTrace = (i, { s with
      pc := s.pc + BitVec.ofNat 16 i.size
      cycles := s.cycles + i.size
      trace := (List.range i.size).map fun k =>
        .read (s.pc + BitVec.ofNat 16 k) (s.peek (s.pc + BitVec.ofNat 16 k)) }) := by
  have hpc : s.pc + 1#16 + 1#16 = s.pc + 2#16 := BitVec.add_assoc _ _ _
  obtain ⟨rest', h'⟩ := decode_three (s.peek s.pc) (s.peek (s.pc + 1#16)) (s.peek (s.pc + 2#16))
  obtain ⟨rfl, -⟩ := Prod.mk.inj (Except.ok.inj (h'.symm.trans h))
  rw [fetchInstr_eq, decodeOpcode_size, ← clearTrace_emit_fetchEvents, ← hpc]
  rfl

/-- Settles O6: the fetch of one byte is its definition; a step is `exec` of what its fetch gives. -/
theorem stepRunsTheDecodedInstruction : Obligations.StepRunsTheDecodedInstruction := by
  refine ⟨fun _ => rfl, fun s i rest hrun hdec => ?_⟩
  rw [step_of_running hrun, fetchInstr_clearTrace_of_decode hdec]

end Sys2Proof.Machine
end

section
/-! SUPPORT. Loads and stores (41_load_store.md): the frame of each step of their meanings, the cycles of an access, the
load into a register by name, and the opcode bytes by mode; then the statements LoadsCopyTheOperand and
StoresWriteTheRegister. -/

namespace Sys2Proof.Machine

/-! ## Frames -/

/-- What one part of a meaning leaves unchanged and what the next does, together. -/
theorem Frame.trans {rs rs' : List Reg} {fs fs' : List Flag} {ws ws' : List Word} {s t u : State}
    (h : Frame rs fs ws s t) (k : Frame rs' fs' ws' t u) : Frame (rs ++ rs') (fs ++ fs') (ws ++ ws') s u := by
  obtain ⟨hreg, hflag, hpeek, hpresent, hfaulted⟩ := h
  obtain ⟨kreg, kflag, kpeek, kpresent, kfaulted⟩ := k
  simp only [Frame, List.mem_append, not_or]
  exact ⟨fun r ⟨hr, kr⟩ => (kreg r kr).trans (hreg r hr), fun f ⟨hf, kf⟩ => (kflag f kf).trans (hflag f hf),
    fun addr ⟨ha, ka⟩ => (kpeek addr ka).trans (hpeek addr ha), kpresent.trans hpresent, kfaulted.trans hfaulted⟩

/-- Bus events that write nothing change nothing `Frame` speaks of (40_sequencer_addressing.md R81). -/
theorem frame_emit_left {rs : List Reg} {fs : List Flag} {ws : List Word} {es : List BusEvent} {s t : State} :
    Frame rs fs ws (s.emit es) t ↔ Frame rs fs ws s t := Iff.rfl

theorem setNZ_frame (v : Byte) (s : State) : Frame [] [.n, .z] [] s (setNZ v s) := by
  refine ⟨fun r _ => setNZ_reg v r s, fun f hf => ?_, fun addr _ => setNZ_peek v addr s, rfl, rfl⟩
  obtain ⟨hn, hz⟩ : f ≠ .n ∧ f ≠ .z := by simpa using hf
  exact setNZ_flag_other v s hn hz

/-- A write on the bus changes the byte at its address, and nothing else that `Frame` speaks of (20_memory.md R43). -/
theorem memWrite_frame (addr : Word) (v : Byte) (s : State) : Frame [] [] [addr] s (memWrite addr v s) :=
  ⟨fun r _ => memWrite_reg addr v s r, fun f _ => memWrite_flag addr v s f,
    fun _ hother => memWrite_peek_other v s (List.ne_of_not_mem_cons hother),
    memWrite_memPresent addr v s, memWrite_faulted addr v s⟩

/-! ## A register by name -/

namespace State

/-- The write of a register by name, beside the read `State.reg`. -/
def setReg (r : Reg) (v : Byte) (s : State) : State :=
  match r with
  | .a => s.setA v
  | .x => s.setX v
  | .y => s.setY v
  | .s => s.setSp v

section setReg
variable (r : Reg) (v : Byte) (s : State)
@[simp] theorem setReg_reg_same : (s.setReg r v).reg r = v := by cases r <;> rfl
@[simp] theorem setReg_pc : (s.setReg r v).pc = s.pc := by cases r <;> rfl
@[simp] theorem setReg_cycles : (s.setReg r v).cycles = s.cycles := by cases r <;> rfl
@[simp] theorem setReg_flag (f : Flag) : (s.setReg r v).flag f = s.flag f := by cases r <;> rfl
@[simp] theorem setReg_peek (addr : Word) : (s.setReg r v).peek addr = s.peek addr := by cases r <;> rfl
@[simp] theorem setReg_memPresent : (s.setReg r v).memPresent = s.memPresent := by cases r <;> rfl
@[simp] theorem setReg_faulted : (s.setReg r v).faulted = s.faulted := by cases r <;> rfl
end setReg

theorem setReg_reg_other {r q : Reg} (h : q ≠ r) (v : Byte) (s : State) : (s.setReg r v).reg q = s.reg q := by
  cases r <;> cases q <;> first
    | exact absurd rfl h
    | rfl

end State

theorem setReg_frame (r : Reg) (v : Byte) (s : State) : Frame [r] [] [] s (s.setReg r v) :=
  ⟨fun _ hq => State.setReg_reg_other (List.ne_of_not_mem_cons hq) v s, fun f _ => State.setReg_flag r v s f,
    fun addr _ => State.setReg_peek r v s addr, State.setReg_memPresent r v s, State.setReg_faulted r v s⟩

/-! ## Cycles -/

theorem size_of_mem {i : Instr} {m : MemMode} (h : i.operand = .mem m) : i.size = m.mode.size := by
  rw [Instr.size, Instr.mode, h, Operand.mode]

/-- A read or a store takes a cycle for each of its own bytes, one for each event of its mode, and one for the access
(40_sequencer_addressing.md R104, R105). -/
theorem accessCycles_eq {cls : AccessClass} (h : cls ≠ .m) (m : MemMode) (s : State) :
    accessCycles cls m s = (addressEvents cls m s).length + 1 + m.mode.size := by
  cases cls with
  | m => exact absurd rfl h
  | w => cases m <;> rfl
  | r =>
    cases m with
    | absx w => simp only [accessCycles, addressEvents, fixupEvents]; split <;> rfl
    | absy w => simp only [accessCycles, addressEvents, fixupEvents]; split <;> rfl
    | indy d => simp only [accessCycles, addressEvents, fixupEvents]; split <;> rfl
    | zp | zpx | zpy | abs | indx => rfl

/-- The same of a class-R instruction, whose operand may be immediate (R104). -/
theorem readCycles_eq {i : Instr} (h : i.operation.opClass = some .r) (s : State) :
    readCycles i s = (sourceEvents i s).length + i.size := by
  rcases operand_of_read h with ⟨d, ho⟩ | ⟨m, ho⟩
  · simp only [readCycles, sourceEvents, Instr.size, Instr.mode, ho]; rfl
  · simp only [readCycles, sourceEvents, ho, size_of_mem ho, accessCycles_eq (cls := .r) (by decide),
      List.length_append, List.length_singleton]

/-! ## Loads -/

/-- A load is of class R, and its computation is the write of its register with N and Z from the byte
(41_load_store.md R120 to R122). -/
theorem load_readFn {o : Operation} {r : Reg} (h : (o, r) ∈ [(Operation.lda, Reg.a), (.ldx, .x), (.ldy, .y)]) :
    o.opClass = some .r ∧ ∀ v s, readFn o v s = setNZ v (s.setReg r v) := by
  simp only [List.mem_cons, List.not_mem_nil, or_false, Prod.mk.injEq] at h
  rcases h with ⟨rfl, rfl⟩ | ⟨rfl, rfl⟩ | ⟨rfl, rfl⟩ <;> exact ⟨rfl, fun _ _ => rfl⟩

theorem setNZ_setReg_frame (r : Reg) (v : Byte) (s : State) : Frame [r] [.n, .z] [] s (setNZ v (s.setReg r v)) :=
  (setReg_frame r v s).trans (setNZ_frame v _)

/-- The opcode bytes of the loads, by mode (R120 to R122). -/
def loadOpcodes : List (Operation × Mode × Byte) := [
  (.lda, .indx, 0xA1#8), (.lda, .zp, 0xA5#8), (.lda, .imm, 0xA9#8), (.lda, .abs, 0xAD#8),
  (.lda, .indy, 0xB1#8), (.lda, .zpx, 0xB5#8), (.lda, .absy, 0xB9#8), (.lda, .absx, 0xBD#8),
  (.ldx, .imm, 0xA2#8), (.ldx, .zp, 0xA6#8), (.ldx, .abs, 0xAE#8), (.ldx, .zpy, 0xB6#8),
  (.ldx, .absy, 0xBE#8), (.ldy, .imm, 0xA0#8), (.ldy, .zp, 0xA4#8), (.ldy, .abs, 0xAC#8),
  (.ldy, .zpx, 0xB4#8), (.ldy, .absx, 0xBC#8)]

/-- Each load has its row's opcode byte, whatever its operand. -/
theorem mem_loadOpcodes (i : Instr) :
    i.operation ∈ [Operation.lda, .ldx, .ldy] → (i.operation, i.mode, i.opcode) ∈ loadOpcodes := by
  refine of_decide_eq_true ?_
  cases i <;> rfl

/-- Settles O30: a load is the write of its register, then `setNZ`, on the state after the events of its mode. -/
theorem loadsCopyTheOperand : Obligations.LoadsCopyTheOperand := by
  intro i r s h
  obtain ⟨hclass, hfn⟩ := load_readFn h
  have hexec := exec_read hclass s
  rw [hfn] at hexec
  refine ⟨_, hexec, ?_, setNZ_NZFrom _ _, ?_, ?_, frame_emit_left.1 (setNZ_setReg_frame r _ _),
    mem_loadOpcodes i (List.mem_map_of_mem (f := Prod.fst) h)⟩
  · rw [setNZ_reg, State.setReg_reg_same]
  · rw [setNZ_pc, State.setReg_pc, State.emit_pc]
  · rw [setNZ_cycles, State.setReg_cycles, State.emit_cycles, readCycles_eq hclass, Nat.add_assoc]

/-! ## Stores -/

theorem opClass_of_store {o : Operation} {r : Reg} (h : (o, r) ∈ [(Operation.sta, Reg.a), (.stx, .x), (.sty, .y)]) :
    o.opClass = some .w := by
  simp only [List.mem_cons, List.not_mem_nil, or_false, Prod.mk.injEq] at h
  rcases h with ⟨rfl, -⟩ | ⟨rfl, -⟩ | ⟨rfl, -⟩ <;> rfl

/-- The opcode bytes of the stores, by mode (41_load_store.md R123 to R125). -/
def storeOpcodes : List (Operation × Mode × Byte) := [
  (.sta, .indx, 0x81#8), (.sta, .zp, 0x85#8), (.sta, .abs, 0x8D#8), (.sta, .indy, 0x91#8),
  (.sta, .zpx, 0x95#8), (.sta, .absy, 0x99#8), (.sta, .absx, 0x9D#8), (.stx, .zp, 0x86#8),
  (.stx, .abs, 0x8E#8), (.stx, .zpy, 0x96#8), (.sty, .zp, 0x84#8), (.sty, .abs, 0x8C#8), (.sty, .zpx, 0x94#8)]

/-- Each store has its row's opcode byte, whatever its operand. -/
theorem mem_storeOpcodes (i : Instr) :
    i.operation ∈ [Operation.sta, .stx, .sty] → (i.operation, i.mode, i.opcode) ∈ storeOpcodes := by
  refine of_decide_eq_true ?_
  cases i <;> rfl

/-- Settles O31: a store is one write on the bus of its register, on the state after the events of its mode. -/
theorem storesWriteTheRegister : Obligations.StoresWriteTheRegister := by
  intro i r s hwf h
  obtain ⟨m, ho⟩ := operand_of_store (opClass_of_store h)
  have hexec := exec_store h ho s
  rw [storeTo_eq] at hexec
  refine ⟨m, _, ho, hexec, ?_⟩
  rw [resolve_eq]
  refine ⟨memWrite_peek_same _ _ hwf, ?_, ?_, frame_emit_left.1 (memWrite_frame _ _ _),
    mem_storeOpcodes i (List.mem_map_of_mem (f := Prod.fst) h)⟩
  · rw [memWrite_pc, State.emit_pc]
  · rw [memWrite_cycles, State.emit_cycles, accessCycles_eq (by decide), size_of_mem ho]
    simp only [Nat.add_assoc]

end Sys2Proof.Machine
end

section
/-! SUPPORT. Logic (42_alu.md): ORA, AND and EOR as one write of A with N and Z, and their opcode bytes by mode; then
the statement LogicCombinesAWithTheOperand. -/

namespace Sys2Proof.Machine

/-- ORA, AND and EOR are of class R, and their computation is the write of A with N and Z from the byte their operation
makes of A and the operand (42_alu.md R130 to R132). -/
theorem logic_readFn {o : Operation} {m v : Byte} {s : State}
    (h : (o, v) ∈ [(Operation.ora, s.a ||| m), (.and, s.a &&& m), (.eor, s.a ^^^ m)]) :
    o.opClass = some .r ∧ readFn o m s = setNZ v (s.setA v) := by
  simp only [List.mem_cons, List.not_mem_nil, or_false, Prod.mk.injEq] at h
  rcases h with ⟨rfl, rfl⟩ | ⟨rfl, rfl⟩ | ⟨rfl, rfl⟩ <;> exact ⟨rfl, rfl⟩

/-- The opcode bytes of ORA, AND and EOR, by mode (R130 to R132). -/
def logicOpcodes : List (Operation × Mode × Byte) := [
  (.ora, .indx, 0x01#8), (.ora, .zp, 0x05#8), (.ora, .imm, 0x09#8), (.ora, .abs, 0x0D#8),
  (.ora, .indy, 0x11#8), (.ora, .zpx, 0x15#8), (.ora, .absy, 0x19#8), (.ora, .absx, 0x1D#8),
  (.and, .indx, 0x21#8), (.and, .zp, 0x25#8), (.and, .imm, 0x29#8), (.and, .abs, 0x2D#8),
  (.and, .indy, 0x31#8), (.and, .zpx, 0x35#8), (.and, .absy, 0x39#8), (.and, .absx, 0x3D#8),
  (.eor, .indx, 0x41#8), (.eor, .zp, 0x45#8), (.eor, .imm, 0x49#8), (.eor, .abs, 0x4D#8),
  (.eor, .indy, 0x51#8), (.eor, .zpx, 0x55#8), (.eor, .absy, 0x59#8), (.eor, .absx, 0x5D#8)]

/-- Each of ORA, AND and EOR has its row's opcode byte, whatever its operand. -/
theorem mem_logicOpcodes (i : Instr) :
    i.operation ∈ [Operation.ora, .and, .eor] → (i.operation, i.mode, i.opcode) ∈ logicOpcodes := by
  refine of_decide_eq_true ?_
  cases i <;> rfl

/-- Settles O32: the events of the mode leave A alone, so the computation after them is the write of A with the byte
combined from the A before, then `setNZ`. -/
theorem logicCombinesAWithTheOperand : Obligations.LogicCombinesAWithTheOperand := by
  intro i v s h
  have hrow := mem_logicOpcodes i (List.mem_map_of_mem (f := Prod.fst) h)
  rw [← State.emit_a (sourceEvents i s)] at h
  obtain ⟨hclass, hfn⟩ := logic_readFn h
  have hexec := exec_read hclass s
  rw [hfn] at hexec
  refine ⟨_, hexec, ?_, setNZ_NZFrom _ _, ?_, ?_, frame_emit_left.1 (setNZ_setReg_frame .a v _), hrow⟩
  · rw [setNZ_a, State.setA_a]
  · rw [setNZ_pc, State.setA_pc, State.emit_pc]
  · rw [setNZ_cycles, State.setA_cycles, State.emit_cycles, readCycles_eq hclass, Nat.add_assoc]

end Sys2Proof.Machine
end

section
/-! SUPPORT. BIT (43_incdec_shift_bit.md R160): each flag of its computation, its frame, and its opcode byte by mode;
then the statement BitTestsTheOperand. -/

namespace Sys2Proof.Machine

section bitTest
variable (m : Byte) (s : State)

@[simp] theorem bitTest_flag_z : (bitTest m s).flag .z = (s.a &&& m == 0#8) := by simp [bitTest_flag]

@[simp] theorem bitTest_flag_n : (bitTest m s).flag .n = m.getLsbD 7 := by simp [bitTest_flag]

@[simp] theorem bitTest_flag_v : (bitTest m s).flag .v = m.getLsbD 6 := by simp [bitTest_flag]

theorem bitTest_flag_other {f : Flag} (hz : f ≠ .z) (hn : f ≠ .n) (hv : f ≠ .v) :
    (bitTest m s).flag f = s.flag f := by simp [bitTest_flag, hz, hn, hv]

/-- BIT changes Z, N and V and nothing else that `Frame` speaks of: the AND of A and the operand is not stored (R160). -/
theorem bitTest_frame : Frame [] [.z, .n, .v] [] s (bitTest m s) := by
  refine ⟨fun r _ => bitTest_reg m r s, fun f hf => ?_, fun addr _ => bitTest_peek m addr s, rfl, rfl⟩
  obtain ⟨hz, hn, hv⟩ : f ≠ .z ∧ f ≠ .n ∧ f ≠ .v := by simpa using hf
  exact bitTest_flag_other m s hz hn hv

end bitTest

/-- BIT is of class R, and its computation is `bitTest` (R160). -/
theorem bit_readFn {o : Operation} (h : o = .bit) : o.opClass = some .r ∧ readFn o = bitTest := by
  subst h
  exact ⟨rfl, rfl⟩

/-- BIT has its row's opcode byte in each of its two modes, whatever its operand (R160). -/
theorem bit_mem_opcodes (i : Instr) : i.operation = .bit →
    (i.operation, i.mode, i.opcode) ∈ [(Operation.bit, Mode.zp, 0x24#8), (.bit, .abs, 0x2C#8)] := by
  refine of_decide_eq_true ?_
  cases i <;> rfl

/-- Settles O39: BIT is `bitTest` of the operand byte, on the state after the events of its mode, which leave A and the
flags alone. -/
theorem bitTestsTheOperand : Obligations.BitTestsTheOperand := by
  intro i s h
  obtain ⟨hclass, hfn⟩ := bit_readFn h
  have hexec := exec_read hclass s
  rw [hfn] at hexec
  refine ⟨_, hexec, ?_, bitTest_flag_n _ _, bitTest_flag_v _ _, ?_, ?_, frame_emit_left.1 (bitTest_frame _ _),
    bit_mem_opcodes i h⟩
  · rw [bitTest_flag_z, State.emit_a, beq_eq_decide]
  · rw [bitTest_pc, State.emit_pc]
  · rw [bitTest_cycles, State.emit_cycles, readCycles_eq hclass, Nat.add_assoc]

end Sys2Proof.Machine
end

section
/-! SUPPORT. The flag instructions (44_transfer_stack_flag.md): the frame of a write of one flag, and their rows as one
meaning; then the statement FlagInstructionsWriteOneFlag. -/

namespace Sys2Proof.Machine

/-- A write of one flag changes that flag, and nothing else that `Frame` speaks of (10_state.md R24). -/
theorem setFlag_frame (f : Flag) (v : Bool) (s : State) : Frame [] [f] [] s (s.setFlag f v) :=
  ⟨fun r _ => State.setFlag_reg f v r s, fun _ hg => State.setFlag_flag_ne (List.ne_of_not_mem_cons hg) v s,
    fun addr _ => State.setFlag_peek f v addr s, rfl, rfl⟩

/-- Each of the seven is one byte, its row's opcode, and means one dead cycle and then the write of its flag
(R180 to R186). -/
theorem flagInstr_meaning {i : Instr} {f : Flag} {v : Bool} {op : Byte}
    (h : (i, f, v, op) ∈ [(.clc, Flag.c, false, 0x18#8), (.sec, .c, true, 0x38#8), (.cli, .i, false, 0x58#8),
      (.sei, .i, true, 0x78#8), (.clv, .v, false, 0xB8#8), (.cld, .d, false, 0xD8#8), (.sed, .d, true, 0xF8#8)]) :
    i.opcode = op ∧ i.size = 1 ∧ ∀ s, exec i s = .next ((s.emit [.dead]).setFlag f v) := by
  simp only [List.mem_cons, List.not_mem_nil, or_false, Prod.mk.injEq] at h
  rcases h with ⟨rfl, rfl, rfl, rfl⟩ | ⟨rfl, rfl, rfl, rfl⟩ | ⟨rfl, rfl, rfl, rfl⟩ | ⟨rfl, rfl, rfl, rfl⟩ |
    ⟨rfl, rfl, rfl, rfl⟩ | ⟨rfl, rfl, rfl, rfl⟩ | ⟨rfl, rfl, rfl, rfl⟩ <;> exact ⟨rfl, rfl, fun _ => rfl⟩

/-- Settles O48: each of the seven is the write of its flag on the state after one dead cycle. -/
theorem flagInstructionsWriteOneFlag : Obligations.FlagInstructionsWriteOneFlag := by
  intro i f v op s h
  obtain ⟨hop, hsize, hexec⟩ := flagInstr_meaning h
  refine ⟨hop, _, hexec s, State.setFlag_flag_same f v _, ?_, ?_, ?_, frame_emit_left.1 (setFlag_frame f v _)⟩
  · rw [State.setFlag_pc, State.emit_pc]
  · rw [State.setFlag_trace, State.emit_trace]
  · rw [State.setFlag_cycles, State.emit_cycles, hsize, List.length_singleton]

end Sys2Proof.Machine
end

section
/-! SUPPORT. Control (45_control.md): the stack locations above and below S as the pulls and pushes name them, the state
JMP indirect, JSR, RTS and RTI leave in those terms, and the frames of their parts; then the statements
JsrPushesTheNextAddress, JumpsLoadPc, RtsPullsPcWithoutIncrement, RtiRestoresPAndPc and NopSpendsADeadCycle. -/

namespace Sys2Proof.Machine

/-! ## The stack locations around S -/

theorem byte_add_one_twice (p : Byte) : p + 1#8 + 1#8 = p + 2#8 := BitVec.add_assoc p 1#8 1#8

theorem byte_add_one_thrice (p : Byte) : p + 1#8 + 1#8 + 1#8 = p + 3#8 := by
  rw [byte_add_one_twice]
  exact BitVec.add_assoc p 1#8 2#8

section stackAt
variable (s : State)

theorem stackAt_zero : stackAt 0 s = stackAddr s.sp := congrArg stackAddr (BitVec.add_zero s.sp)

theorem stackAt_neg_one : stackAt (-1) s = stackAddr (s.sp - 1#8) :=
  congrArg stackAddr (BitVec.sub_eq_add_neg s.sp 1#8).symm

theorem stackAt_one : stackAt 1 s = stackAddr (s.sp + 1#8) := rfl

theorem stackAt_two : stackAt 2 s = stackAddr (s.sp + 1#8 + 1#8) :=
  congrArg stackAddr (byte_add_one_twice s.sp).symm

theorem stackAt_three : stackAt 3 s = stackAddr (s.sp + 1#8 + 1#8 + 1#8) :=
  congrArg stackAddr (byte_add_one_thrice s.sp).symm

end stackAt

/-! ## Frames -/

/-- PC is no part of what `Frame` speaks of. -/
theorem frame_setPc_right {rs : List Reg} {fs : List Flag} {ws : List Word} {w : Word} {s t : State} :
    Frame rs fs ws s (t.setPc w) ↔ Frame rs fs ws s t := Iff.rfl

/-- Nor are the trace and the counter. -/
theorem frame_emit_right {rs : List Reg} {fs : List Flag} {ws : List Word} {es : List BusEvent} {s t : State} :
    Frame rs fs ws s (t.emit es) ↔ Frame rs fs ws s t := Iff.rfl

theorem Frame.refl (s : State) : Frame [] [] [] s s := ⟨fun _ _ => rfl, fun _ _ => rfl, fun _ _ => rfl, rfl, rfl⟩

theorem mem_allFlags (f : Flag) : f ∈ allFlags := by cases f <;> decide

/-- A write of P changes flags only. -/
theorem setP_frame (v : Byte) (s : State) : Frame [] allFlags [] s (s.setP v) := by
  refine ⟨fun r _ => ?_, fun f hf => absurd (mem_allFlags f) hf, fun addr _ => State.setP_peek v addr s, rfl, rfl⟩
  cases r <;> rfl

theorem pushWord_reg {r : Reg} (w : Word) (s : State) (h : r ≠ .s) : (pushWord w s).reg r = s.reg r :=
  (push_reg _ _ h).trans (push_reg _ _ h)

/-- A pushed address changes S and the two bytes at and below the stack location, and nothing else that `Frame` speaks
of (20_memory.md R45, R48). -/
theorem pushWord_frame (w : Word) (s : State) :
    Frame [.s] [] [stackAddr s.sp, stackAddr (s.sp - 1#8)] s (pushWord w s) := by
  refine ⟨fun _ hr => pushWord_reg w s (List.ne_of_not_mem_cons hr), fun f _ => pushWord_flag w s f,
    fun addr haddr => ?_, pushWord_memPresent w s, pushWord_faulted w s⟩
  obtain ⟨hhi, hlo⟩ : addr ≠ stackAddr s.sp ∧ addr ≠ stackAddr (s.sp - 1#8) := by simpa using haddr
  exact pushWord_peek_other hhi hlo

/-! ## The meanings -/

/-- JMP indirect: the two reads of the pointer, then PC (R209; 40_sequencer_addressing.md R94). -/
theorem exec_jmpInd (w : Word) (s : State) :
    exec (.jmpInd w) s = .next ((s.emit [.read w (s.peek w),
        .read (w16 (hi w) (lo w + 1#8)) (s.peek (w16 (hi w) (lo w + 1#8)))]).setPc
      (w16 (s.peek (w16 (hi w) (lo w + 1#8))) (s.peek w))) := by
  have hexec : exec (.jmpInd w) s = .next ((resolveInd w s).2.setPc (resolveInd w s).1) := rfl
  rw [hexec, resolveInd_eq]

/-- JSR: a dead cycle, PC pushed, then PC to the operand (R210). -/
theorem exec_jsr (w : Word) (s : State) :
    exec (.jsr w) s = .next ((pushWord s.pc (s.emit [.dead])).setPc w) := rfl

/-- RTS: three dead cycles and the two pulls, then PC to the word above S as it stands (R211). -/
theorem exec_rts (s : State) :
    exec .rts s = .next (((s.setSp (s.sp + 2#8)).emit
        [.dead, .dead, .dead, .read (stackAt 1 s) (s.peek (stackAt 1 s)),
         .read (stackAt 2 s) (s.peek (stackAt 2 s))]).setPc
      (w16 (s.peek (stackAt 2 s)) (s.peek (stackAt 1 s)))) := by
  have hexec : exec .rts s = execRts s := rfl
  simp [hexec, execRts, dead_eq, pullWord_eq, State.setSp_emit, stackAt_one, stackAt_two, byte_add_one_twice]

/-- RTI: the three pulls with their dead cycles, P with all 8 bits, then PC (R213). -/
theorem exec_rti (s : State) :
    exec .rti s = .next ((((s.setSp (s.sp + 3#8)).emit
        [.dead, .read (stackAt 1 s) (s.peek (stackAt 1 s)), .dead, .read (stackAt 2 s) (s.peek (stackAt 2 s)),
         .read (stackAt 3 s) (s.peek (stackAt 3 s))]).setP (s.peek (stackAt 1 s))).setPc
      (w16 (s.peek (stackAt 3 s)) (s.peek (stackAt 2 s)))) := by
  have hexec : exec .rti s = .next (trapReturn s) := rfl
  rw [hexec, trapReturn_eq, ← stackAt_three, ← stackAt_two, ← stackAt_one, byte_add_one_thrice]

/-- Settles O51: JSR is the push of PC after a dead cycle, which changes no byte, register or flag. -/
theorem jsrPushesTheNextAddress : Obligations.JsrPushesTheNextAddress := by
  intro w s hwf
  rw [stackAt_zero, stackAt_neg_one]
  refine ⟨rfl, _, exec_jsr w s, rfl, pushWord_sp _ _, pushWord_peek_hi s.pc hwf, pushWord_peek_lo s.pc hwf, ?_, ?_,
    frame_setPc_right.2 (frame_emit_left.1 (pushWord_frame s.pc _))⟩
  · rw [State.setPc_trace, pushWord_trace, State.emit_trace, List.append_assoc]; rfl
  · rw [State.setPc_cycles, pushWord_cycles, State.emit_cycles]; rfl

/-- Settles O50: JMP is one write of PC, after the two reads of the pointer in the indirect mode. -/
theorem jumpsLoadPc : Obligations.JumpsLoadPc := fun w s =>
  ⟨rfl, rfl, ⟨s.setPc w, rfl, rfl, rfl, rfl, frame_setPc_right.2 (Frame.refl s)⟩,
    _, exec_jmpInd w s, rfl, rfl, rfl, frame_setPc_right.2 (frame_emit_right.2 (Frame.refl s))⟩

/-- Settles O52: RTS is the write of S, five bus events and the write of PC. -/
theorem rtsPullsPcWithoutIncrement : Obligations.RtsPullsPcWithoutIncrement :=
  ⟨rfl, fun s => ⟨_, exec_rts s, rfl, rfl, rfl, rfl,
    frame_setPc_right.2 (frame_emit_right.2 (setReg_frame .s _ s))⟩⟩

/-- Settles O55: RTI is the write of S, five bus events and the writes of P and PC. -/
theorem rtiRestoresPAndPc : Obligations.RtiRestoresPAndPc :=
  ⟨rfl, fun s => ⟨_, exec_rti s, rfl, rfl, rfl, rfl, rfl,
    frame_setPc_right.2 ((frame_emit_right.2 (setReg_frame .s _ s)).trans (setP_frame _ _))⟩⟩

/-- Settles O57: NOP is the dead cycle (45_control.md R214). -/
theorem nopSpendsADeadCycle : Obligations.NopSpendsADeadCycle := ⟨rfl, fun _ => rfl⟩

end Sys2Proof.Machine
end

section
/-! SUPPORT. The encoding (30_encoding.md): what the opcode map reads from each opcode byte, the operand each mode
takes from the bytes after it, and the two directions of the round trip; then the statements DecodeReadsBackEncode,
EncodeWritesBackDecode, UndefinedBytesAreTheListedOnes, OperandsAreAssembledByFormat and WordsOfTheSpecDecode. -/

namespace Sys2Proof

/-! ## Operands and their bytes -/

/-- The byte of an operand of format F2; 0 for the other formats, as `decode` hands it to the opcode map. -/
def Operand.byte : Operand → Byte
  | .imm d | .rel d => d
  | .mem (.zp d) | .mem (.zpx d) | .mem (.zpy d) | .mem (.indx d) | .mem (.indy d) => d
  | _ => 0#8

/-- The word of an operand of format F3; 0 for the other formats. -/
def Operand.word : Operand → Word
  | .ind w | .mem (.abs w) | .mem (.absx w) | .mem (.absy w) => w
  | _ => 0#16

/-- The operand a mode makes of the byte and the word after the opcode (30_encoding.md R60, R61). -/
def Mode.operand (m : Mode) (d : Byte) (w : Word) : Operand :=
  match m with
  | .imp => .imp
  | .acc => .acc
  | .imm => .imm d
  | .rel => .rel d
  | .ind => .ind w
  | .zp => .mem (.zp d)
  | .zpx => .mem (.zpx d)
  | .zpy => .mem (.zpy d)
  | .abs => .mem (.abs w)
  | .absx => .mem (.absx w)
  | .absy => .mem (.absy w)
  | .indx => .mem (.indx d)
  | .indy => .mem (.indy d)

/-- The bytes after the opcode are as many as the format has and hold the operand (R60, R61). -/
theorem Mode.operand_bytes (m : Mode) (d : Byte) (w : Word) :
    (m.operand d w).bytes = if m.size = 1 then [] else if m.size = 2 then [d] else [lo w, hi w] := by
  cases m <;> rfl

/-! ## The opcode map -/

/-- What the opcode map reads, the operand apart, is the opcode byte's alone (R69), and the operand is the one its mode
makes of the bytes that follow: each row of R63's table, cell by cell. -/
theorem decodeOpcode_by_opcode (op d : Byte) (w : Word) :
    (decodeOpcode op d w).operation = (decodeOpcode op 0#8 0#16).operation ∧
    (decodeOpcode op d w).opcode = (decodeOpcode op 0#8 0#16).opcode ∧
    (decodeOpcode op d w).wf = (decodeOpcode op 0#8 0#16).wf ∧
    (decodeOpcode op d w).operand = (decodeOpcode op 0#8 0#16).mode.operand d w := by
  unfold decodeOpcode
  split
  case h_1 => unfold decodeRow0; split <;> exact ⟨rfl, rfl, rfl, rfl⟩
  case h_2 => unfold decodeRow1; split <;> exact ⟨rfl, rfl, rfl, rfl⟩
  case h_3 => unfold decodeRow2; split <;> exact ⟨rfl, rfl, rfl, rfl⟩
  case h_4 => unfold decodeRow3; split <;> exact ⟨rfl, rfl, rfl, rfl⟩
  case h_5 => unfold decodeRow4; split <;> exact ⟨rfl, rfl, rfl, rfl⟩
  case h_6 => unfold decodeRow5; split <;> exact ⟨rfl, rfl, rfl, rfl⟩
  case h_7 => unfold decodeRow6; split <;> exact ⟨rfl, rfl, rfl, rfl⟩
  case h_8 => unfold decodeRow7; split <;> exact ⟨rfl, rfl, rfl, rfl⟩
  case h_9 => unfold decodeRow8; split <;> exact ⟨rfl, rfl, rfl, rfl⟩
  case h_10 => unfold decodeRow9; split <;> exact ⟨rfl, rfl, rfl, rfl⟩
  case h_11 => unfold decodeRowA; split <;> exact ⟨rfl, rfl, rfl, rfl⟩
  case h_12 => unfold decodeRowB; split <;> exact ⟨rfl, rfl, rfl, rfl⟩
  case h_13 => unfold decodeRowC; split <;> exact ⟨rfl, rfl, rfl, rfl⟩
  case h_14 => unfold decodeRowD; split <;> exact ⟨rfl, rfl, rfl, rfl⟩
  case h_15 => unfold decodeRowE; split <;> exact ⟨rfl, rfl, rfl, rfl⟩
  case h_16 => unfold decodeRowF; split <;> exact ⟨rfl, rfl, rfl, rfl⟩

/-- The map gives an instruction whose opcode byte is the one it was read from (R63, R65). -/
theorem decodeOpcode_opcode (op d : Byte) (w : Word) : (decodeOpcode op d w).opcode = op := by
  obtain ⟨-, hop, -, -⟩ := decodeOpcode_by_opcode op d w
  rw [hop]
  clear hop
  revert op; decide

/-- The map gives `undefined` only to bytes R65 lists. -/
theorem decodeOpcode_wf (op d : Byte) (w : Word) : (decodeOpcode op d w).wf = true := by
  obtain ⟨-, -, hwf, -⟩ := decodeOpcode_by_opcode op d w
  rw [hwf]
  clear hwf
  revert op; decide

theorem decodeOpcode_operand (op d : Byte) (w : Word) :
    (decodeOpcode op d w).operand = (decodeOpcode op 0#8 0#16).mode.operand d w := by
  obtain ⟨-, -, -, hoperand⟩ := decodeOpcode_by_opcode op d w
  exact hoperand

/-- The bytes after the opcode of what the map gives, by the length the opcode byte gives (R60, R69). -/
theorem decodeOpcode_operand_bytes (op d : Byte) (w : Word) :
    (decodeOpcode op d w).operand.bytes =
      if opcodeSize op = 1 then [] else if opcodeSize op = 2 then [d] else [lo w, hi w] := by
  rw [decodeOpcode_operand, Mode.operand_bytes]
  rfl

theorem eq_undefined_of_operation {i : Instr} (h : i.operation = .undefined) : i = .undefined i.opcode := by
  cases i <;> first
    | rfl
    | cases h

/-- The map gives `undefined` to every byte R65 lists. -/
theorem decodeOpcode_of_mem_undefined : ∀ op ∈ undefinedOpcodes, decodeOpcode op 0#8 0#16 = .undefined op := by
  decide

/-- The map is a left inverse of opcode byte and operand on the instructions of the opcode table (R63). -/
theorem decodeOpcode_opcode_operand {i : Instr} (h : i.wf = true) :
    decodeOpcode i.opcode i.operand.byte i.operand.word = i := by
  cases i
  case undefined op => exact decodeOpcode_of_mem_undefined op (List.contains_iff_mem.mp h)
  all_goals
    dsimp only [Instr.opcode]
    rfl

/-- The length a well-formed instruction's opcode byte gives is its own (R69). -/
theorem opcodeSize_opcode {i : Instr} (h : i.wf = true) : opcodeSize i.opcode = i.operand.mode.size := by
  rw [← Machine.decodeOpcode_size i.opcode i.operand.byte i.operand.word, decodeOpcode_opcode_operand h]
  rfl

/-! ## Decoding -/

theorem decode_cons_word {op : Byte} (h : opcodeSize op = 3) (w : Word) (rest : List Byte) :
    decode (op :: lo w :: hi w :: rest) = .ok (decodeOpcode op 0#8 w, rest) := by
  simp [decode, h]

/-- The bytes of an operand, after an opcode byte of its length, are read back by the opcode map, and no more. -/
theorem decode_cons_operand_bytes {op : Byte} {o : Operand} (h : opcodeSize op = o.mode.size) (rest : List Byte) :
    decode (op :: (o.bytes ++ rest)) = .ok (decodeOpcode op o.byte o.word, rest) := by
  cases o with
  | imp | acc | imm | rel => simp only [decode, h]; rfl
  | ind w => exact decode_cons_word h w rest
  | mem m =>
    cases m with
    | zp | zpx | zpy | indx | indy => simp only [decode, h]; rfl
    | abs w | absx w | absy w => exact decode_cons_word h w rest

/-- Whatever `decode` reads is what the opcode map gives, and the bytes read are the opcode byte and the operand's. -/
theorem decode_ok {bs rest : List Byte} {i : Instr} (h : decode bs = .ok (i, rest)) :
    ∃ op d w, i = decodeOpcode op d w ∧ bs = op :: ((decodeOpcode op d w).operand.bytes ++ rest) := by
  match bs with
  | [] => cases h
  | op :: tail =>
    simp only [decode] at h
    split at h
    · next hsize =>
      obtain ⟨rfl, rfl⟩ := Prod.mk.inj (Except.ok.inj h)
      exact ⟨op, _, _, rfl, by simp [decodeOpcode_operand_bytes, hsize]⟩
    · next d _ hsize =>
      obtain ⟨rfl, rfl⟩ := Prod.mk.inj (Except.ok.inj h)
      exact ⟨op, _, _, rfl, by simp [decodeOpcode_operand_bytes, hsize]⟩
    · next ll hh _ hsize =>
      obtain ⟨rfl, rfl⟩ := Prod.mk.inj (Except.ok.inj h)
      exact ⟨op, _, _, rfl, by simp [decodeOpcode_operand_bytes, hsize]⟩
    · cases h

/-- Settles O1: the operand's bytes are read back by the length the opcode byte gives, and the opcode map is a left
inverse of opcode byte and operand. -/
theorem decodeReadsBackEncode : Obligations.DecodeReadsBackEncode := by
  intro i rest hwf
  have hdec := decode_cons_operand_bytes (opcodeSize_opcode hwf) rest
  rwa [decodeOpcode_opcode_operand hwf] at hdec

/-- Settles O2: what decodes comes from the opcode map, which keeps the opcode byte and the operand's bytes. -/
theorem encodeWritesBackDecode : Obligations.EncodeWritesBackDecode := by
  intro bs rest i h
  obtain ⟨op, d, w, rfl, rfl⟩ := decode_ok h
  refine ⟨decodeOpcode_wf op d w, ?_⟩
  rw [encode, decodeOpcode_opcode, List.cons_append]

/-- Settles O3: an undefined instruction is well-formed only with a listed byte, which is the byte it was read from, and
the map gives `undefined` to each listed byte. -/
theorem undefinedBytesAreTheListedOnes : Obligations.UndefinedBytesAreTheListedOnes := by
  refine ⟨rfl, by decide, fun op d w => ⟨fun h => ?_, fun h => ?_⟩⟩
  · have hwf := decodeOpcode_wf op d w
    rw [eq_undefined_of_operation h, decodeOpcode_opcode] at hwf
    exact List.contains_iff_mem.mp hwf
  · obtain ⟨hoperation, -⟩ := decodeOpcode_by_opcode op d w
    rw [hoperation, decodeOpcode_of_mem_undefined op h]
    rfl

/-- Settles O4: the bytes read are the encoding's, so the operand's bytes and the rest are the list's, and each format's
bytes give the operand back. -/
theorem operandsAreAssembledByFormat : Obligations.OperandsAreAssembledByFormat := by
  intro op b1 b2 rest r i h
  obtain ⟨-, hbytes⟩ := encodeWritesBackDecode _ _ _ h
  obtain ⟨hop, htail⟩ := List.cons.inj hbytes
  refine ⟨hop, ?_⟩
  have hword {w : Word} (hlo : lo w = b1) (hhi : hi w = b2) : w = w16 b2 b1 := by rw [← hlo, ← hhi, w16_hi_lo]
  cases ho : i.operand with
  | imp | acc => rw [ho] at htail; exact htail
  | imm d | rel d => rw [ho] at htail; exact List.cons.inj htail
  | ind w =>
    rw [ho] at htail
    obtain ⟨hlo, htail⟩ := List.cons.inj htail
    obtain ⟨hhi, htail⟩ := List.cons.inj htail
    exact ⟨hword hlo hhi, htail⟩
  | mem m =>
    rw [ho] at htail
    cases m with
    | zp d | zpx d | zpy d | indx d | indy d => exact List.cons.inj htail
    | abs w | absx w | absy w =>
      obtain ⟨hlo, htail⟩ := List.cons.inj htail
      obtain ⟨hhi, htail⟩ := List.cons.inj htail
      exact ⟨hword hlo hhi, htail⟩

/-- Settles O5: each word is evaluated. -/
theorem wordsOfTheSpecDecode : Obligations.WordsOfTheSpecDecode := ⟨rfl, rfl, rfl, rfl, rfl, rfl, rfl, rfl⟩

end Sys2Proof
end

section
/-! SUPPORT. Every instruction by the shared operation it runs (40_sequencer_addressing.md R84): the computation of a
class-I instruction as one function, the meanings of the stack instructions and of BRK as bus events and named writes,
and the case split that the proofs about all instructions go by. -/

namespace Sys2Proof.Machine

/-- The computation of a class-I operation, after its one dead cycle. -/
def impliedFn : Operation → State → State
  | .tax => fun s => setNZ s.a (s.setX s.a)
  | .tay => fun s => setNZ s.a (s.setY s.a)
  | .txa => fun s => setNZ s.x (s.setA s.x)
  | .tya => fun s => setNZ s.y (s.setA s.y)
  | .tsx => fun s => setNZ s.sp (s.setX s.sp)
  | .txs => fun s => s.setSp s.x
  | .inx => fun s => setNZ (s.x + 1#8) (s.setX (s.x + 1#8))
  | .iny => fun s => setNZ (s.y + 1#8) (s.setY (s.y + 1#8))
  | .dex => fun s => setNZ (s.x - 1#8) (s.setX (s.x - 1#8))
  | .dey => fun s => setNZ (s.y - 1#8) (s.setY (s.y - 1#8))
  | .clc => fun s => s.setFlag .c false
  | .sec => fun s => s.setFlag .c true
  | .cli => fun s => s.setFlag .i false
  | .sei => fun s => s.setFlag .i true
  | .clv => fun s => s.setFlag .v false
  | .cld => fun s => s.setFlag .d false
  | .sed => fun s => s.setFlag .d true
  | _ => id

/-- A class-I instruction: one dead cycle, then its computation (R105). -/
theorem exec_implied {i : Instr} (h : i.operation.opClass = some .i) (s : State) :
    exec i s = .next (impliedFn i.operation (s.emit [.dead])) := by
  cases i <;> first
    | (cases h; done)
    | rfl

/-- PHA: a dead cycle, A pushed, N and Z from A by the default `phaSetsNZ` (44_transfer_stack_flag.md R176). -/
theorem exec_pha (s : State) : exec .pha s = .next (setNZ s.a (push s.a (s.emit [.dead]))) := rfl

/-- PHP: a dead cycle, P pushed as stored (R177). -/
theorem exec_php (s : State) : exec .php s = .next (push s.p (s.emit [.dead])) := rfl

/-- The state after the two dead cycles and the pull that PLA and PLP begin with. -/
def pulled (s : State) : State :=
  (s.setSp (s.sp + 1#8)).emit [.dead, .dead, .read (stackAt 1 s) (s.peek (stackAt 1 s))]

theorem pull_dead_dead (s : State) : pull (dead (dead s)) = (s.peek (stackAt 1 s), pulled s) := by
  rw [dead_eq, dead_eq, State.emit_emit, pull_eq]
  simp [pulled, stackAt_one, State.setSp_emit]

/-- PLA: A and then N and Z from the byte pulled (R178). -/
theorem exec_pla (s : State) :
    exec .pla s = .next (setNZ (s.peek (stackAt 1 s)) ((pulled s).setA (s.peek (stackAt 1 s)))) := by
  have hexec : exec .pla s = execPla s := rfl
  rw [hexec, execPla, pull_dead_dead]

/-- PLP: all 8 bits of P from the byte pulled (R179). -/
theorem exec_plp (s : State) : exec .plp s = .next ((pulled s).setP (s.peek (stackAt 1 s))) := by
  have hexec : exec .plp s = execPlp s := rfl
  rw [hexec, execPlp, pull_dead_dead]

/-- BRK: a dead cycle, PC past the skipped byte, then the trap's entry (45_control.md R212). -/
theorem exec_brk (s : State) : exec .brk s = .next (trapEntry ((s.emit [.dead]).setPc (s.pc + 1#16))) := rfl

theorem branch_of_ne {f : Flag} {v : Bool} {s : State} (h : s.flag f ≠ v) (d : Byte) : branch f v d s = s := by
  rw [branch_eq, if_neg h]

/-- A taken branch: PC plus the offset, after one dead cycle, or two into another page (45_control.md R200). -/
theorem branch_of_eq {f : Flag} {v : Bool} {s : State} (h : s.flag f = v) (d : Byte) :
    branch f v d s = (s.emit (if crossed s.pc (s.pc + sext16 d) then [.dead, .dead] else [.dead])).setPc
      (s.pc + sext16 d) := by
  rw [branch_eq, if_pos h]

/-- The instructions by the shared operation they run: the classes R, W, M, B and I of R84, and the rest one by one. -/
inductive Shape : Instr → Prop
  | read {i : Instr} (h : i.operation.opClass = some .r) : Shape i
  | store {i : Instr} {r : Reg} {m : MemMode}
      (h : (i.operation, r) ∈ [(Operation.sta, Reg.a), (.stx, .x), (.sty, .y)]) (ho : i.operand = .mem m) : Shape i
  | modifyMem {i : Instr} {m : MemMode} (h : i.operation.opClass = some .m) (ho : i.operand = .mem m) : Shape i
  | modifyAcc {i : Instr} (h : i.operation.opClass = some .m) (ho : i.operand = .acc) : Shape i
  | branch {i : Instr} {f : Flag} {v : Bool} {d : Byte} (h : branchCondition i.operation = some (f, v))
      (ho : i.operand = .rel d) : Shape i
  | implied {i : Instr} (h : i.operation.opClass = some .i) : Shape i
  | jmpAbs (w : Word) : Shape (.jmpAbs w)
  | jmpInd (w : Word) : Shape (.jmpInd w)
  | jsr (w : Word) : Shape (.jsr w)
  | rts : Shape .rts
  | brk : Shape .brk
  | rti : Shape .rti
  | pha : Shape .pha
  | php : Shape .php
  | pla : Shape .pla
  | plp : Shape .plp
  | undefined (op : Byte) : Shape (.undefined op)

theorem shape (i : Instr) : Shape i := by
  cases i
  case jmpAbs w => exact .jmpAbs w
  case jmpInd w => exact .jmpInd w
  case jsr w => exact .jsr w
  case rts => exact .rts
  case brk => exact .brk
  case rti => exact .rti
  case pha => exact .pha
  case php => exact .php
  case pla => exact .pla
  case plp => exact .plp
  case undefined op => exact .undefined op
  all_goals first
    | exact .read rfl
    | exact .implied rfl
    | exact .modifyMem rfl rfl
    | exact .modifyAcc rfl rfl
    | exact .branch rfl rfl
    | exact .store (.head _) rfl
    | exact .store (.tail _ (.head _)) rfl
    | exact .store (.tail _ (.tail _ (.head _))) rfl

/-- The meaning of an undefined byte is the fault (60_exceptions.md R231). -/
theorem exec_undefined (op : Byte) (s : State) :
    exec (.undefined op) s = .fault (.undefinedOpcode op (s.pc - 1#16) { s with faulted := some (op, s.pc - 1#16) }) :=
  rfl

/-- `exec` answers no refusal (`decimalPolicy` is `binary` by default, log entry 9). -/
theorem exec_ne_refused (i : Instr) (s : State) (q : Refusal) : exec i s ≠ .refused q := by
  intro h
  cases i <;> cases h

/-- A documented instruction has a next state. -/
theorem exec_next {i : Instr} (h : i.operation ≠ .undefined) (s : State) : ∃ t, exec i s = .next t := by
  cases hout : exec i s with
  | next t => exact ⟨t, rfl⟩
  | fault r =>
    obtain ⟨op, rfl, -⟩ := exec_fault hout
    exact absurd rfl h
  | refused q => exact absurd hout (exec_ne_refused i s q)

end Sys2Proof.Machine
end

section
/-! SUPPORT. The cycle counter and the trace as observers (10_state.md R25, 40_sequencer_addressing.md R80): no fetch
and no meaning reads them; then the statement CounterAndTraceInfluenceNothing. -/

namespace Sys2Proof.Machine

/-- The same state with another count. -/
def State.recount (n : Nat) (s : State) : State := { s with cycles := n }

/-! ## Operations at another count -/

theorem State.emit_recount (es : List BusEvent) (n : Nat) (s : State) :
    (s.recount n).emit es = (s.emit es).recount (n + es.length) := rfl

theorem memWrite_recount (addr : Word) (v : Byte) (n : Nat) (s : State) :
    memWrite addr v (s.recount n) = (memWrite addr v s).recount (n + 1) := by
  cases hp : s.memPresent <;> simp [memWrite_eq, State.recount, State.emit, State.setMem, hp]

theorem push_recount (v : Byte) (n : Nat) (s : State) : push v (s.recount n) = (push v s).recount (n + 1) :=
  congrArg (State.setSp (s.sp - 1#8)) (memWrite_recount (stackAddr s.sp) v n s)

theorem pushWord_recount (w : Word) (n : Nat) (s : State) :
    pushWord w (s.recount n) = (pushWord w s).recount (n + 2) := by
  rw [pushWord, push_recount, push_recount]; rfl

theorem trapPushed_recount (n : Nat) (s : State) : trapPushed (s.recount n) = (trapPushed s).recount (n + 3) :=
  (congrArg (push s.p) (pushWord_recount s.pc n s)).trans (push_recount s.p (n + 2) (pushWord s.pc s))

theorem trapEntry_recount (n : Nat) (s : State) : trapEntry (s.recount n) = (trapEntry s).recount (n + 5) := by
  rw [trapEntry_eq, trapEntry_eq, trapPushed_recount]; rfl

theorem readFn_recount (o : Operation) (v : Byte) (n : Nat) (s : State) :
    readFn o v (s.recount n) = (readFn o v s).recount n := by cases o <;> rfl

theorem modifyFn_recount (o : Operation) (old : Byte) (n : Nat) (s : State) :
    modifyFn o old (s.recount n) = ((modifyFn o old s).1, (modifyFn o old s).2.recount n) := by cases o <;> rfl

theorem impliedFn_recount (o : Operation) (n : Nat) (s : State) :
    impliedFn o (s.recount n) = (impliedFn o s).recount n := by cases o <;> rfl

/-- The operand byte depends on X, Y and memory only (40_sequencer_addressing.md R88 to R96). -/
theorem sourceByte_congr (i : Instr) {s t : State} (hx : t.x = s.x) (hy : t.y = s.y) (hmem : t.mem = s.mem)
    (hpresent : t.memPresent = s.memPresent) : sourceByte i t = sourceByte i s := by
  have hpeek (addr : Word) : t.peek addr = s.peek addr := by rw [State.peek, State.peek, hmem, hpresent]
  have haddress (m : MemMode) : effectiveAddress m t = effectiveAddress m s := by
    cases m <;> simp only [effectiveAddress, zpPointer, hx, hy, hpeek]
  cases ho : i.operand with
  | mem m => simp only [sourceByte, ho, resolve_eq, haddress, hpeek]
  | _ => simp only [sourceByte, ho]

theorem sourceByte_recount (i : Instr) (n : Nat) (s : State) : sourceByte i (s.recount n) = sourceByte i s :=
  sourceByte_congr i rfl rfl rfl rfl

theorem State.reg_recount (r : Reg) (n : Nat) (s : State) : (s.recount n).reg r = s.reg r := by cases r <;> rfl

theorem modifyMemory_recount (o : Operation) (m : MemMode) (n : Nat) (s : State) :
    modifyMemory (modifyFn o) m (s.recount n) =
      (modifyMemory (modifyFn o) m s).recount (n + ((addressEvents .m m s).length + 3)) := by
  rw [modifyMemory_eq, modifyMemory_eq, State.emit_recount]
  simp only [modifyFn_recount, memWrite_recount, List.length_append, Nat.add_assoc]
  rfl

/-! ## Meanings, the fetch and the step -/

/-- Whatever the count a meaning begins with, it gives the same state, a fixed number of cycles later. -/
theorem exec_recount {i : Instr} {s t : State} (h : exec i s = .next t) :
    ∃ k, ∀ n, exec i (s.recount n) = .next (t.recount (n + k)) := by
  cases shape i with
  | read hr =>
    rw [exec_read hr] at h
    cases h
    refine ⟨(sourceEvents i s).length, fun n => ?_⟩
    rw [exec_read hr, sourceByte_recount, ← readFn_recount]
    rfl
  | @store _ r m hw ho =>
    rw [exec_store hw ho, storeTo_eq] at h
    cases h
    refine ⟨(addressEvents .w m s).length + 1, fun n => ?_⟩
    rw [exec_store hw ho, storeTo_eq, State.reg_recount]
    exact congrArg _ (memWrite_recount _ _ _ (s.emit (addressEvents .w m s)))
  | @modifyMem _ m hm ho =>
    rw [exec_modify_mem hm ho] at h
    cases h
    refine ⟨(addressEvents .m m s).length + 3, fun n => ?_⟩
    rw [exec_modify_mem hm ho, modifyMemory_recount]
  | modifyAcc hm ho =>
    rw [exec_modify_acc hm ho] at h
    cases h
    refine ⟨1, fun n => ?_⟩
    rw [exec_modify_acc hm ho]
    exact congrArg (fun r : Byte × State => Host.Outcome.next (r.2.setA r.1))
      (modifyFn_recount i.operation s.a (n + 1) (dead s))
  | @branch _ f v d hb ho =>
    rw [exec_branch hb ho] at h
    cases h
    by_cases hf : s.flag f = v
    · refine ⟨(if crossed s.pc (s.pc + sext16 d) then [BusEvent.dead, .dead] else [.dead]).length, fun n => ?_⟩
      have hf' : (s.recount n).flag f = v := hf
      rw [exec_branch hb ho, branch_of_eq hf, branch_of_eq hf']
      rfl
    · refine ⟨0, fun n => ?_⟩
      have hf' : (s.recount n).flag f ≠ v := hf
      rw [exec_branch hb ho, branch_of_ne hf, branch_of_ne hf']
      rfl
  | implied hi =>
    rw [exec_implied hi] at h
    cases h
    refine ⟨1, fun n => ?_⟩
    rw [exec_implied hi, ← impliedFn_recount]
    rfl
  | jmpAbs w => cases h; exact ⟨0, fun _ => rfl⟩
  | jmpInd w => cases h; exact ⟨2, fun _ => rfl⟩
  | jsr w =>
    cases h
    exact ⟨3, fun n => congrArg (fun u : State => Host.Outcome.next (u.setPc w))
      (pushWord_recount s.pc (n + 1) (s.emit [.dead]))⟩
  | rts =>
    rw [exec_rts] at h
    cases h
    exact ⟨5, fun n => exec_rts (s.recount n)⟩
  | brk =>
    rw [exec_brk] at h
    cases h
    refine ⟨6, fun n => ?_⟩
    rw [exec_brk, ← trapEntry_recount (n + 1)]
    rfl
  | rti =>
    rw [exec_rti] at h
    cases h
    exact ⟨5, fun n => exec_rti (s.recount n)⟩
  | pha =>
    cases h
    exact ⟨2, fun n =>
      congrArg (fun u => Host.Outcome.next (setNZ s.a u)) (push_recount s.a (n + 1) (s.emit [.dead]))⟩
  | php => cases h; exact ⟨2, fun n => congrArg Host.Outcome.next (push_recount s.p (n + 1) (s.emit [.dead]))⟩
  | pla => cases h; exact ⟨3, fun _ => rfl⟩
  | plp => cases h; exact ⟨3, fun _ => rfl⟩
  | undefined op => cases h

theorem fetchEvents_recount (k : Nat) (addr : Word) (n : Nat) (s : State) :
    fetchEvents k addr (s.recount n) = fetchEvents k addr s := by
  rw [fetchEvents_eq_map, fetchEvents_eq_map]; rfl

theorem fetchEvents_length (k : Nat) (addr : Word) (s : State) : (fetchEvents k addr s).length = k := by
  rw [fetchEvents_eq_map, List.length_map, List.length_range]

/-- The fetch does not read the count. -/
theorem fetchInstr_recount (n : Nat) (s : State) :
    fetchInstr (s.recount n) = ((fetchInstr s).1, (fetchInstr s).2.recount (n + opcodeSize (s.peek s.pc))) := by
  rw [fetchInstr_eq, fetchInstr_eq, fetchEvents_recount, State.emit_recount, fetchEvents_length]
  rfl

/-- A step of a state with another count and another trace is the same meaning on the same fetch, at that count. -/
theorem step_with_cycles_trace {s : State} (hrun : s.faulted = none) (n : Nat) (tr : List BusEvent) :
    step { s with cycles := n, trace := tr } =
      exec (fetchInstr s.clearTrace).1 ((fetchInstr s.clearTrace).2.recount (n + opcodeSize (s.peek s.pc))) :=
  (step_of_running (s := { s with cycles := n, trace := tr }) hrun).trans
    (congrArg (fun r : Instr × State => exec r.1 r.2) (fetchInstr_recount n s.clearTrace))

/-- Settles O13: the fetch and the meaning each give the same state a fixed number of cycles later, and at the state's
own count that number is what the step took. -/
theorem counterAndTraceInfluenceNothing : Obligations.CounterAndTraceInfluenceNothing := by
  intro s t n tr hrun h
  obtain ⟨k, hk⟩ := exec_recount ((step_of_running hrun).symm.trans h)
  have hstep (m : Nat) (tr : List BusEvent) : step { s with cycles := m, trace := tr } =
      .next (t.recount (m + (opcodeSize (s.peek s.pc) + k))) := by
    rw [step_with_cycles_trace hrun, hk, Nat.add_assoc]
  have hself : t.cycles = s.cycles + (opcodeSize (s.peek s.pc) + k) :=
    congrArg State.cycles (Host.Outcome.next.inj (h.symm.trans (hstep s.cycles s.trace)))
  refine ⟨hself ▸ Nat.le_add_right _ _, ?_⟩
  rw [hstep, hself, Nat.add_sub_cancel_left]
  rfl

end Sys2Proof.Machine
end

section
/-! SUPPORT. Faults, the invariant and the host's actions (60_exceptions.md section 1, 70_reset_and_hazards.md section
2): what a step can leave behind, and what every action of the host keeps; then the statements StepKeepsTheInvariant,
DocumentedInstructionsComplete, UndefinedOpcodeEndsTheStep, FaultedStepRepeatsTheFault, FaultLastsUntilReset,
ResetMeetsTheInvariant, ReachableStatesMeetTheInvariant, CycleCounterNeverDecreases and AbsentMemoryStaysAbsent. -/

namespace Sys2Proof.Machine

/-! ## What a step leaves behind -/

/-- Settles O9: `step` looks at the record first (60_exceptions.md R232). -/
theorem faultedStepRepeatsTheFault : Obligations.FaultedStepRepeatsTheFault := by
  intro s op addr h
  simp only [step, h]

theorem fetchInstr_wf (s : State) : (fetchInstr s).1.wf = true := by
  rw [fetchInstr_eq]
  exact decodeOpcode_wf _ _ _

/-- What a step leaves behind: the state it found, where a fault is recorded or nothing has a meaning; or, where none is
recorded, a state that follows from the one with a new trace, in which the fault of a listed byte may have been
recorded. -/
theorem leftBy_step (s : State) :
    leftBy s (step s) = s ∨ s.faulted = none ∧ ∃ u, Follows s.clearTrace u ∧
      (leftBy s (step s) = u ∨
        ∃ op addr, op ∈ undefinedOpcodes ∧ leftBy s (step s) = u.setFaulted (some (op, addr))) := by
  cases hfaulted : s.faulted with
  | some r =>
    obtain ⟨op, addr⟩ := r
    rw [faultedStepRepeatsTheFault s op addr hfaulted]
    exact .inl rfl
  | none =>
    have hfetch := fetchInstr_follows s.clearTrace
    cases hout : step s with
    | refused q => exact .inl rfl
    | next t =>
      rw [step_of_running hfaulted] at hout
      exact .inr ⟨rfl, t, hfetch.trans (exec_follows hout), .inl rfl⟩
    | fault r =>
      rw [step_of_running hfaulted] at hout
      obtain ⟨op, hop, rfl⟩ := exec_fault hout
      have hwf := fetchInstr_wf s.clearTrace
      rw [hop] at hwf
      exact .inr ⟨rfl, _, hfetch, .inr ⟨op, _, List.contains_iff_mem.mp hwf, rfl⟩⟩

/-! ## The invariant -/

/-- Bus events and named writes on a running state with a new trace lead to a state that meets the invariant. -/
theorem Follows.invariant {s u : State} (hwf : s.mem.wf = true) (hrun : s.faulted = none)
    (h : Follows s.clearTrace u) : Invariant u := by
  refine ⟨h.wf hwf, ?_, fun op addr hu => ?_⟩
  · rw [h.cycles_eq_add_length (n := s.cycles) rfl]
    exact Nat.le_add_left _ _
  · rw [h.faulted, State.clearTrace_faulted, hrun] at hu
    cases hu

theorem Invariant.setFaulted {u : State} {op : Byte} (hop : op ∈ undefinedOpcodes) (addr : Word) (h : Invariant u) :
    Invariant (u.setFaulted (some (op, addr))) := by
  obtain ⟨hwf, hlength, -⟩ := h
  refine ⟨hwf, hlength, fun op' addr' hrecord => ?_⟩
  obtain ⟨rfl, -⟩ := Prod.mk.inj (Option.some.inj hrecord)
  exact hop

/-- A step keeps the invariant, whatever it ends in. -/
theorem Invariant.leftBy_step {s : State} (h : Invariant s) : Invariant (leftBy s (step s)) := by
  rcases Machine.leftBy_step s with hs | ⟨hrun, u, hu, hleft⟩
  · rw [hs]; exact h
  · have hinv := hu.invariant h.1 hrun
    rcases hleft with hleft | ⟨op, addr, hop, hleft⟩
    · rw [hleft]; exact hinv
    · rw [hleft]; exact hinv.setFaulted hop addr

/-- Settles O14: a next state and the state inside a fault are both the state the step leaves behind. -/
theorem stepKeepsTheInvariant : Obligations.StepKeepsTheInvariant := by
  intro s hs
  have hleft := hs.leftBy_step
  refine ⟨fun t h => ?_, fun op addr t h => ?_⟩
  · rwa [h] at hleft
  · rwa [h] at hleft

/-- Settles O15: memory lists nothing, and the two cycles of the reset are the two reads in the trace. -/
theorem resetMeetsTheInvariant : Obligations.ResetMeetsTheInvariant :=
  ⟨rfl, Nat.le_refl 2, fun _ _ h => nomatch h⟩

/-! ## The host's actions -/

/-- What every action of a list keeps, the list keeps. -/
theorem performAll_keeps {P : State → Prop} {acts : List HostAction} {s : State}
    (hact : ∀ act ∈ acts, ∀ t, P t → P (act.perform t)) (hs : P s) : P (performAll acts s) := by
  induction acts generalizing s with
  | nil => exact hs
  | cons act acts ih =>
    exact ih (fun a ha => hact a (.tail _ ha)) (hact act (.head _) s hs)

theorem hostWrite_cycles (addr : Word) (v : Byte) (s : State) : (hostWrite addr v s).cycles = s.cycles := by
  unfold hostWrite; split <;> rfl

theorem hostWrite_memPresent (addr : Word) (v : Byte) (s : State) : (hostWrite addr v s).memPresent = s.memPresent := by
  unfold hostWrite; split <;> rfl

theorem hostWrite_faulted (addr : Word) (v : Byte) (s : State) : (hostWrite addr v s).faulted = s.faulted := by
  unfold hostWrite; split <;> rfl

theorem hostWrite_trace (addr : Word) (v : Byte) (s : State) : (hostWrite addr v s).trace = s.trace := by
  unfold hostWrite; split <;> rfl

/-- Every action of the host keeps the invariant. -/
theorem Invariant.perform {s : State} (act : HostAction) (h : Invariant s) : Invariant (act.perform s) := by
  obtain ⟨hwf, hlength, hrecord⟩ := h
  cases act with
  | step => exact Invariant.leftBy_step ⟨hwf, hlength, hrecord⟩
  | reset => exact ⟨hwf, Nat.le_add_left _ _, fun _ _ h => nomatch h⟩
  | writeMemory addr v =>
    refine ⟨hostWrite_wf hwf, ?_, ?_⟩
    · rw [HostAction.perform, hostWrite_trace, hostWrite_cycles]; exact hlength
    · rw [HostAction.perform, hostWrite_faulted]; exact hrecord
  | _ => exact ⟨hwf, hlength, hrecord⟩

/-- Settles O16: the block as constructed meets the invariant, and every action keeps it. -/
theorem reachableStatesMeetTheInvariant : Obligations.ReachableStatesMeetTheInvariant := by
  rintro _ ⟨a, x, y, sp, p, pc, m, acts, hwf, rfl⟩
  have hpower : Invariant (State.powerOn a x y sp p pc m) := ⟨hwf, Nat.le_refl 0, fun _ _ h => nomatch h⟩
  exact performAll_keeps (fun act _ _ h => h.perform act) hpower

/-- No action takes the counter down. -/
theorem cycles_le_perform (act : HostAction) (s : State) : s.cycles ≤ (act.perform s).cycles := by
  cases act with
  | step =>
    have hmono {u : State} (hu : Follows s.clearTrace u) : s.cycles ≤ u.cycles := by
      rw [hu.cycles_eq_add_length (n := s.cycles) rfl]
      exact Nat.le_add_right _ _
    change s.cycles ≤ (leftBy s (step s)).cycles
    rcases leftBy_step s with hs | ⟨-, u, hu, hleft | ⟨op, addr, -, hleft⟩⟩
    · rw [hs]
    · rw [hleft]; exact hmono hu
    · rw [hleft]; exact hmono (u := u) hu
  | reset => exact Nat.le_add_right s.cycles 2
  | writeMemory addr v => exact (hostWrite_cycles addr v s).ge
  | _ => exact Nat.le_refl _

/-- Settles O17: every action leaves the counter at least what it was. -/
theorem cycleCounterNeverDecreases : Obligations.CycleCounterNeverDecreases := fun _ s =>
  performAll_keeps (P := fun t => s.cycles ≤ t.cycles) (fun act _ t h => h.trans (cycles_le_perform act t))
    (Nat.le_refl s.cycles)

/-- No action makes Memory present again (10_state.md R26). -/
theorem perform_absent (act : HostAction) {s : State} (h : s.memPresent = false) :
    (act.perform s).memPresent = false := by
  cases act with
  | step =>
    change (leftBy s (step s)).memPresent = false
    rcases leftBy_step s with hs | ⟨-, u, hu, hleft | ⟨op, addr, -, hleft⟩⟩
    · rw [hs]; exact h
    · rw [hleft]; exact hu.present.trans h
    · rw [hleft]; exact hu.present.trans h
  | writeMemory addr v => exact (hostWrite_memPresent addr v s).trans h
  | dropMemory => rfl
  | _ => exact h

/-- Settles O18: every action keeps Memory absent. -/
theorem absentMemoryStaysAbsent : Obligations.AbsentMemoryStaysAbsent := fun _ _ h =>
  performAll_keeps (P := fun t => t.memPresent = false) (fun act _ _ ht => perform_absent act ht) h

/-- Every action but reset keeps the record of a fault, a step by repeating it. -/
theorem perform_faulted {act : HostAction} {s : State} {r : Byte × Word} (hact : act ≠ .reset)
    (h : s.faulted = some r) : (act.perform s).faulted = some r := by
  cases act with
  | step =>
    change (leftBy s (step s)).faulted = some r
    rw [faultedStepRepeatsTheFault s r.1 r.2 h]
    exact h
  | reset => exact absurd rfl hact
  | writeMemory addr v => exact (hostWrite_faulted addr v s).trans h
  | _ => exact h

/-- Settles O10: every action of a list without reset keeps the record, and reset clears it. -/
theorem faultLastsUntilReset : Obligations.FaultLastsUntilReset :=
  ⟨fun _ _ r h hacts => performAll_keeps (P := fun t => t.faulted = some r)
    (fun _ hact _ ht => perform_faulted (fun e => hacts (e ▸ hact)) ht) h, fun _ => rfl⟩

/-! ## Completion and faults -/

/-- Settles O7: a documented instruction has a next state, which follows by bus events and named writes. -/
theorem documentedInstructionsComplete : Obligations.DocumentedInstructionsComplete := by
  intro i s h
  obtain ⟨t, ht⟩ := exec_next h s
  exact ⟨t, ht, (exec_follows ht).present, (exec_follows ht).faulted⟩

/-- A listed byte decodes alone, whatever follows (30_encoding.md R65, R69). -/
theorem decode_of_mem_undefined {op : Byte} (h : op ∈ undefinedOpcodes) (rest : List Byte) :
    decode (op :: rest) = .ok (.undefined op, rest) :=
  decodeReadsBackEncode (.undefined op) rest (List.contains_iff_mem.mpr h)

/-- Settles O8: a listed byte decodes to `undefined`, whose one byte the step fetches and whose meaning is the fault. -/
theorem undefinedOpcodeEndsTheStep : Obligations.UndefinedOpcodeEndsTheStep := by
  refine ⟨fun s hrun hop => ?_, exec_undefined⟩
  obtain ⟨-, hrunDecoded⟩ := stepRunsTheDecodedInstruction
  have hsize : (Instr.undefined (s.peek s.pc)).size = 1 := rfl
  have hpc : s.pc + 1#16 - 1#16 = s.pc := BitVec.add_sub_cancel _ _
  rw [hrunDecoded s _ _ hrun (decode_of_mem_undefined hop _), hsize, List.range_one, List.map_singleton,
    BitVec.add_zero]
  simp only [exec_undefined, hpc]

end Sys2Proof.Machine
end

section
/-! SUPPORT. Addressing (40_sequencer_addressing.md sections 4 to 7): effective addresses as numbers, the byte and the
flags a class-M computation gives, and the bus template of an instruction on memory; then the statements
DirectModesAddressAsStated, IndirectModesAddressAsStated, AddressingMakesTheEventsOfTheMode and
MemoryInstructionsFollowTheBusTemplate. -/

namespace Sys2Proof.Machine

/-! ## Effective addresses -/

theorem zext16_eq_ofNat (v : Byte) : zext16 v = BitVec.ofNat 16 v.toNat := by
  rw [← zext16_toNat, BitVec.ofNat_toNat, BitVec.setWidth_eq]

/-- An index added to an address, modulo 65536 (R92, R93). -/
theorem add_zext16_toNat (w : Word) (v : Byte) : (w + zext16 v).toNat = (w.toNat + v.toNat) % 65536 := by
  rw [BitVec.toNat_add, zext16_toNat]

/-- An index added to a zero-page address stays in the zero page (R89, R90). -/
theorem zext16_add_toNat (d v : Byte) : (zext16 (d + v)).toNat = (d.toNat + v.toNat) % 256 := by
  rw [zext16_toNat, BitVec.toNat_add]

/-- Settles O26: each effective address is a byte, a word, or such a sum. -/
theorem directModesAddressAsStated : Obligations.DirectModesAddressAsStated := fun d w _ s =>
  ⟨zext16_toNat d, zext16_add_toNat d s.x, zext16_add_toNat d s.y, rfl, add_zext16_toNat w s.x,
    add_zext16_toNat w s.y⟩

/-- A zero-page pointer as the number its two bytes make, low byte first (20_memory.md R47). -/
theorem zpPointer_toNat (d : Byte) (s : State) :
    (zpPointer d s).toNat = (s.peek (BitVec.ofNat 16 d.toNat)).toNat +
      256 * (s.peek (BitVec.ofNat 16 ((d.toNat + 1) % 256))).toNat := by
  rw [zpPointer, w16_toNat, zext16_eq_ofNat, zext16_eq_ofNat, BitVec.toNat_add, Nat.mul_comm, Nat.add_comm]
  rfl

/-- The second byte of JMP's pointer lies in the pointer's own page (R94). -/
theorem next_in_page_eq_ofNat (w : Word) :
    w16 (hi w) (lo w + 1#8) = BitVec.ofNat 16 (w.toNat / 256 * 256 + (w.toNat % 256 + 1) % 256) := by
  rw [w16, hi_toNat, BitVec.toNat_add, lo_toNat]
  rfl

/-- Settles O27: each pointer is the number its bytes make, and the index of (d),Y is added to it. -/
theorem indirectModesAddressAsStated : Obligations.IndirectModesAddressAsStated := by
  intro d w cls s
  refine ⟨?_, ?_, ?_⟩
  · rw [resolve_eq, effectiveAddress, zpPointer_toNat, BitVec.toNat_add, Nat.mod_add_mod]
  · rw [resolve_eq, effectiveAddress, add_zext16_toNat, zpPointer_toNat]
  · rw [resolveInd_eq, w16_toNat, next_in_page_eq_ofNat, Nat.mul_comm, Nat.add_comm]

/-- Settles O28: `Resolve` is the effective address and the events of the mode. -/
theorem addressingMakesTheEventsOfTheMode : Obligations.AddressingMakesTheEventsOfTheMode := by
  intro m cls s
  rw [resolve_eq]
  rfl

/-! ## Class-M computations -/

theorem ofNat_mul_two (old : Byte) : BitVec.ofNat 8 (old.toNat * 2) = old <<< 1 := by revert old; decide

theorem ofNat_div_two (old : Byte) : BitVec.ofNat 8 (old.toNat / 2) = old >>> 1 := by revert old; decide

/-- ROL's sum as a shift with the carry in bit 0 (43_incdec_shift_bit.md R158). -/
theorem ofNat_rotateLeft (c : Bool) (old : Byte) :
    BitVec.ofNat 8 (old.toNat * 2 + c.toNat) = old <<< 1 ||| (if c then 0x01#8 else 0x00#8) := by
  cases c <;> revert old <;> decide

/-- ROR's sum as a shift with the carry in bit 7 (R159). -/
theorem ofNat_rotateRight (c : Bool) (old : Byte) :
    BitVec.ofNat 8 (old.toNat / 2 + c.toNat * 0x80) = old >>> 1 ||| (if c then 0x80#8 else 0x00#8) := by
  cases c <;> revert old <;> decide

/-- The byte a class-M computation gives is the one the rules state as a shift. -/
theorem modifyFn_fst (o : Operation) (old : Byte) (s : State) : (modifyFn o old s).1 = modified o old (s.flag .c) := by
  cases o with
  | asl => exact ofNat_mul_two old
  | lsr => exact ofNat_div_two old
  | rol => exact ofNat_rotateLeft (s.flag .c) old
  | ror => exact ofNat_rotateRight (s.flag .c) old
  | _ => rfl

/-- A read-modify-write instruction on memory: the new byte written after the events of R105. -/
theorem exec_modify_mem_eq {i : Instr} {m : MemMode} (h : i.operation.opClass = some .m) (ho : i.operand = .mem m)
    (s : State) :
    exec i s = .next (memWrite (effectiveAddress m s)
      (modified i.operation (s.peek (effectiveAddress m s)) (s.flag .c))
      (modifyFn i.operation (s.peek (effectiveAddress m s)) (s.emit (addressEvents .m m s ++
        [.read (effectiveAddress m s) (s.peek (effectiveAddress m s)), .dead]))).2) := by
  rw [exec_modify_mem h ho, modifyMemory_eq, ← State.emit_flag, ← modifyFn_fst]

theorem modifyFn_trace (o : Operation) (old : Byte) (s : State) : (modifyFn o old s).2.trace = s.trace := by
  cases o <;> rfl

theorem readFn_trace (o : Operation) (v : Byte) (s : State) : (readFn o v s).trace = s.trace := by cases o <;> rfl

/-- Settles O29: each class's meaning in full, and a computation appends nothing to the trace. -/
theorem memoryInstructionsFollowTheBusTemplate : Obligations.MemoryInstructionsFollowTheBusTemplate := by
  intro i m s ho
  simp only [resolve_eq]
  refine ⟨fun hr => ⟨_, exec_read_mem hr ho s, ?_⟩, fun r hw => ⟨_, exec_store hw ho s, ?_⟩,
    fun hm => ⟨_, exec_modify_mem_eq hm ho s, ?_⟩⟩
  · rw [readWith_eq, readFn_trace, State.emit_trace, List.append_assoc]
  · rw [storeTo_eq, memWrite_trace, State.emit_trace]
  · rw [memWrite_trace, modifyFn_trace, State.emit_trace]
    simp only [List.append_assoc, List.cons_append, List.nil_append]

end Sys2Proof.Machine
end

section
/-! SUPPORT. Arithmetic and compares (42_alu.md): the adder's sum, its flags and its frame, SBC as the adder on the
complement, and the two carry rules of a compare; then the statements AdcAddsWithCarry, SbcSubtractsWithBorrow,
SbcUndoesAdc, DecimalFlagChangesNoArithmetic, ComparesSetCarryBySignedOrder and CompareCarryRulesDifferBySign. -/

namespace Sys2Proof.Machine

/-! ## The adder -/

theorem and_0x80_ne_zero (v : Byte) : (v &&& 0x80#8 != 0#8) = v.msb := by revert v; decide

/-- The adder's V is the rule of signs: the addends have one sign and the result the other (42_alu.md R133). -/
theorem overflow_eq_signs (a m r : Byte) :
    ((a ^^^ r) &&& (m ^^^ r) &&& 0x80#8 != 0#8) = decide (a.msb = m.msb ∧ r.msb ≠ a.msb) := by
  rw [and_0x80_ne_zero, BitVec.msb_and, BitVec.msb_xor, BitVec.msb_xor]
  generalize a.msb = x, m.msb = y, r.msb = z
  revert x y z; decide

section adder
variable (m : Byte) (s : State)

theorem addWithCarry_a_toNat :
    (addWithCarry m s).a.toNat = (s.a.toNat + m.toNat + (s.flag .c).toNat) % 256 := by
  rw [addWithCarry_a, BitVec.toNat_ofNat, adcSum]

theorem addWithCarry_flag_c :
    (addWithCarry m s).flag .c = decide (s.a.toNat + m.toNat + (s.flag .c).toNat > 255) := by
  simp [addWithCarry_flag, adcSum]

theorem addWithCarry_flag_v :
    (addWithCarry m s).flag .v = decide (s.a.msb = m.msb ∧ (addWithCarry m s).a.msb ≠ s.a.msb) := by
  rw [addWithCarry_a, ← overflow_eq_signs]
  simp [addWithCarry_flag]

theorem addWithCarry_NZFrom : NZFrom (addWithCarry m s).a (addWithCarry m s) :=
  NZFrom_of_flags (by simp [addWithCarry_flag]) (by simp [addWithCarry_flag])

/-- The adder changes A, C, V, N and Z, and nothing else that `Frame` speaks of (R133). -/
theorem addWithCarry_frame : Frame [.a] [.c, .v, .n, .z] [] s (addWithCarry m s) := by
  refine ⟨fun r hr => ?_, fun f hf => ?_, fun addr _ => addWithCarry_peek m addr s, rfl, rfl⟩
  · cases r with
    | a => exact absurd rfl (List.ne_of_not_mem_cons hr)
    | _ => rfl
  · obtain ⟨hc, hv, hn, hz⟩ : f ≠ .c ∧ f ≠ .v ∧ f ≠ .n ∧ f ≠ .z := by simpa using hf
    simp [addWithCarry_flag, hc, hv, hn, hz]

end adder

theorem opClass_of_arith {o : Operation} (h : o = .adc ∨ o = .sbc) : o.opClass = some .r := by
  rcases h with rfl | rfl <;> rfl

/-- Settles O33: ADC is the adder on the operand byte, on the state after the events of its mode. -/
theorem adcAddsWithCarry : Obligations.AdcAddsWithCarry := by
  intro i s h
  have hclass := opClass_of_arith (.inl h)
  have hexec := exec_read hclass s
  rw [h] at hexec
  refine ⟨_, hexec, addWithCarry_a_toNat _ _, addWithCarry_flag_c _ _, addWithCarry_flag_v _ _,
    addWithCarry_NZFrom _ _, rfl, ?_, frame_emit_left.1 (addWithCarry_frame _ _)⟩
  rw [readCycles_eq hclass, ← Nat.add_assoc]
  rfl

/-- Settles O34: SBC is the adder on the complement, whose sum is the difference and 256. -/
theorem sbcSubtractsWithBorrow : Obligations.SbcSubtractsWithBorrow := by
  intro i s h
  have hclass := opClass_of_arith (.inr h)
  have hexec := exec_read hclass s
  rw [h] at hexec
  have hm := (sourceByte i s).isLt
  have hcin := Bool.toNat_le (s.flag .c)
  refine ⟨_, hexec, ?_, ?_, ?_, addWithCarry_NZFrom _ _, rfl, ?_, frame_emit_left.1 (addWithCarry_frame _ _)⟩
  · have hsum := addWithCarry_a_toNat (~~~sourceByte i s) (s.emit (sourceEvents i s))
    rw [BitVec.toNat_not, State.emit_a, State.emit_flag] at hsum
    change ((addWithCarry _ _).a.toNat : Int) = _
    omega
  · refine (addWithCarry_flag_c _ _).trans (decide_eq_decide.2 ?_)
    rw [BitVec.toNat_not, State.emit_a, State.emit_flag]
    omega
  · refine (addWithCarry_flag_v _ _).trans (decide_eq_decide.2 (and_congr_left' ?_))
    rw [BitVec.msb_not, State.emit_a]
    generalize s.a.msb = x, (sourceByte i s).msb = y
    revert x y; decide
  · rw [readCycles_eq hclass, ← Nat.add_assoc]
    rfl

/-- Settles O35: the two sums, with complementary addends and carries, add 256 to A in all. -/
theorem sbcUndoesAdc : Obligations.SbcUndoesAdc := by
  intro m s
  refine ⟨_, _, rfl, rfl, ?_⟩
  apply BitVec.eq_of_toNat_eq
  have hadc := addWithCarry_a_toNat m s
  have hsbc := addWithCarry_a_toNat (~~~m) ((addWithCarry m s).setFlag .c (!s.flag .c))
  rw [BitVec.toNat_not, State.setFlag_a, State.setFlag_flag_same, hadc] at hsbc
  have ha := s.a.isLt
  have hm := m.isLt
  refine hsbc.trans ?_
  cases s.flag .c <;> simp only [Bool.not_true, Bool.not_false, Bool.toNat_true, Bool.toNat_false] <;> omega

/-! ## The Decimal flag -/

/-- The adder neither reads nor writes D. -/
theorem addWithCarry_setFlag_d (m : Byte) (d : Bool) (s : State) :
    addWithCarry m (s.setFlag .d d) = (addWithCarry m s).setFlag .d d := by
  have hc : (s.setFlag .d d).flag .c = s.flag .c := State.setFlag_flag_ne (by decide) d s
  simp only [addWithCarry, setNZ, hc, State.setFlag_a]
  rw [State.setFlag_comm (f := .d) (g := .c) (by decide), State.setFlag_comm (f := .d) (g := .v) (by decide),
    State.setFlag_comm (f := .d) (g := .n) (by decide), State.setFlag_comm (f := .d) (g := .z) (by decide)]
  rfl

theorem readFn_arith_setFlag_d {o : Operation} (h : o = .adc ∨ o = .sbc) (v : Byte) (d : Bool) (s : State) :
    readFn o v (s.setFlag .d d) = (readFn o v s).setFlag .d d := by
  rcases h with rfl | rfl
  · exact addWithCarry_setFlag_d v d s
  · exact addWithCarry_setFlag_d (~~~v) d s

theorem sourceByte_setFlag (i : Instr) (f : Flag) (d : Bool) (s : State) :
    sourceByte i (s.setFlag f d) = sourceByte i s := sourceByte_congr i rfl rfl rfl rfl

/-- Settles O36: neither the operand byte, the events of the mode nor the adder depend on D; the two policies are
evaluated. -/
theorem decimalFlagChangesNoArithmetic : Obligations.DecimalFlagChangesNoArithmetic := by
  refine ⟨fun i s d h => ⟨_, exec_read (opClass_of_arith h) s, ?_⟩, fun _ _ => ⟨rfl, rfl⟩⟩
  rw [exec_read (opClass_of_arith h), sourceByte_setFlag, ← readFn_arith_setFlag_d h]
  rfl

/-! ## Compares -/

/-- A byte as a signed number: below 128 itself, from 128 on 256 less (00_scope.md section 4). -/
theorem byte_toInt (v : Byte) : v.toInt = if v.toNat < 128 then (v.toNat : Int) else (v.toNat : Int) - 256 := by
  rw [BitVec.toInt_eq_toNat_cond]
  split <;> split <;> omega

/-- Settles O38: where the signs agree, both readings of a byte differ by the same number; where they differ, the
negative byte is the larger number. -/
theorem compareCarryRulesDifferBySign : Obligations.CompareCarryRulesDifferBySign := by
  intro r m
  refine ⟨rfl, ?_⟩
  have hr := r.isLt
  have hm := m.isLt
  simp only [compareCarry]
  by_cases hsign : r.msb = m.msb
  · rw [if_pos hsign, decide_eq_decide, sint8, sint8, byte_toInt, byte_toInt]
    rw [msb_eq_ge, msb_eq_ge, decide_eq_decide] at hsign
    split <;> split <;> omega
  · rw [if_neg hsign, ← decide_not, decide_eq_decide, sint8, sint8, byte_toInt, byte_toInt]
    rw [msb_eq_ge, msb_eq_ge, decide_eq_decide] at hsign
    split <;> split <;> omega

/-- A compare changes C, N and Z, and nothing else that `Frame` speaks of (42_alu.md R138). -/
theorem compare_frame (k : CmpCarry) (r m : Byte) (s : State) : Frame [] [.c, .n, .z] [] s (compare k r m s) := by
  refine ⟨fun q _ => compare_reg k r m q s, fun f hf => ?_, fun addr _ => compare_peek k r m addr s, rfl, rfl⟩
  obtain ⟨hc, hn, hz⟩ : f ≠ .c ∧ f ≠ .n ∧ f ≠ .z := by simpa using hf
  simp [compare_flag, hc, hn, hz]

theorem compare_NZFrom (k : CmpCarry) (r m : Byte) (s : State) : NZFrom (r - m) (compare k r m s) :=
  NZFrom_of_flags (by simp [compare_flag]) (by simp [compare_flag])

theorem compare_flag_c (k : CmpCarry) (r m : Byte) (s : State) : (compare k r m s).flag .c = compareCarry k r m := by
  simp [compare_flag]

/-- CMP, CPX and CPY are of class R, and compare their register by the default carry rule (log entry 7). -/
theorem compare_readFn {o : Operation} {r : Reg} (h : (o, r) ∈ [(Operation.cmp, Reg.a), (.cpx, .x), (.cpy, .y)]) :
    o.opClass = some .r ∧ ∀ m s, readFn o m s = compare .signed (s.reg r) m s := by
  simp only [List.mem_cons, List.not_mem_nil, or_false, Prod.mk.injEq] at h
  rcases h with ⟨rfl, rfl⟩ | ⟨rfl, rfl⟩ | ⟨rfl, rfl⟩ <;> exact ⟨rfl, fun _ _ => rfl⟩

theorem State.emit_reg (es : List BusEvent) (r : Reg) (s : State) : (s.emit es).reg r = s.reg r := by cases r <;> rfl

/-- Settles O37: a compare of the register with the operand byte, on the state after the events of its mode. -/
theorem comparesSetCarryBySignedOrder : Obligations.ComparesSetCarryBySignedOrder := by
  intro i r s h
  obtain ⟨hclass, hfn⟩ := compare_readFn h
  have hexec := exec_read hclass s
  rw [hfn, State.emit_reg] at hexec
  refine ⟨_, hexec, compare_flag_c _ _ _ _, compare_NZFrom _ _ _ _, ?_, ?_,
    frame_emit_left.1 (compare_frame _ _ _ _)⟩
  · rw [compare_pc, State.emit_pc]
  · rw [compare_cycles, State.emit_cycles, readCycles_eq hclass, Nat.add_assoc]

end Sys2Proof.Machine
end

section
/-! SUPPORT. Increment, decrement, shifts and rotates, transfers and stack instructions (43_incdec_shift_bit.md,
44_transfer_stack_flag.md): a class-M computation as one write of C and one of N and Z, a class-I instruction as one
write of a register, and the pushes and pulls of one byte; then the statements ModifiesRewriteTheByte,
AccumulatorShiftsRewriteA, IndexRegistersCountModulo256, TransfersCopyARegister, TxsWritesNoFlag, PhaPushesA,
PhpPushesPAsStored and PullsLoadAOrP. -/

namespace Sys2Proof.Machine

/-! ## Read-modify-write -/

/-- A flag written with what it holds. -/
theorem State.setFlag_self (f : Flag) (s : State) : s.setFlag f (s.flag f) = s := by
  have hp : (s.setFlag f (s.flag f)).p = s.p := by
    apply State.p_ext
    intro g
    rw [State.setFlag_flag]
    split
    · next hg => rw [hg]
    · rfl
  exact congrArg (fun p => s.setP p) hp

/-- The state a class-M computation leaves: the carry, then N and Z from the new byte (43_incdec_shift_bit.md R150,
R151, R156 to R159). -/
theorem modifyFn_snd {o : Operation} (h : o.opClass = some .m) (old : Byte) (s : State) :
    (modifyFn o old s).2 =
      setNZ (modified o old (s.flag .c)) (s.setFlag .c (modifiedCarry o old (s.flag .c))) := by
  rw [← modifyFn_fst]
  cases o with
  | asl | lsr | rol | ror => rfl
  | inc | dec =>
    rw [modifiedCarry, State.setFlag_self]
    · rfl
    all_goals decide
  | _ => cases h

/-- A carry and then N and Z are all that such a state has of its own. -/
theorem setNZ_setFlag_frame (f : Flag) (b : Bool) (v : Byte) (s : State) :
    Frame [] [f, .n, .z] [] s (setNZ v (s.setFlag f b)) :=
  (setFlag_frame f b s).trans (setNZ_frame v _)

/-- N and Z are flags, which a write on the bus leaves alone. -/
theorem memWrite_NZFrom {v : Byte} {s : State} (addr : Word) (w : Byte) (h : NZFrom v s) :
    NZFrom v (memWrite addr w s) := by
  obtain ⟨hn, hz⟩ := h
  exact ⟨(memWrite_flag addr w s .n).trans hn, (memWrite_flag addr w s .z).trans hz⟩

/-- A read-modify-write instruction takes a cycle for each of its own bytes, one for each event of its mode, and three
for the read, the dead cycle and the write (40_sequencer_addressing.md R102, R104). -/
theorem accessCycles_modify {i : Instr} {m : MemMode} (h : i.operation.opClass = some .m) (ho : i.operand = .mem m)
    (s : State) : accessCycles .m m s = (addressEvents .m m s).length + 3 + i.size := by
  cases i <;> first
    | (cases h; done)
    | (cases ho; done)
    | (cases ho; rfl)

/-- Settles O40: the new byte is written to the bus on the state that the computation leaves after the events of R105. -/
theorem modifiesRewriteTheByte : Obligations.ModifiesRewriteTheByte := by
  intro i m s hwf hm ho
  have hexec := exec_modify_mem_eq hm ho s
  rw [modifyFn_snd hm, State.emit_flag] at hexec
  refine ⟨_, hexec, ?_⟩
  rw [resolve_eq]
  refine ⟨memWrite_peek_same _ _ hwf, ?_, memWrite_NZFrom _ _ (setNZ_NZFrom _ _), ?_, ?_,
    frame_emit_left.1 ((setNZ_setFlag_frame .c _ _ _).trans (memWrite_frame _ _ _))⟩
  · rw [memWrite_flag, setNZ_flag_other _ _ (by decide) (by decide), State.setFlag_flag_same]
  · rw [memWrite_pc, setNZ_pc, State.setFlag_pc, State.emit_pc]
  · rw [memWrite_cycles, setNZ_cycles, State.setFlag_cycles, State.emit_cycles, accessCycles_modify hm ho,
      List.length_append, List.length_cons, List.length_singleton]
    omega

theorem size_of_acc {i : Instr} (h : i.operand = .acc) : i.size = 1 := by
  rw [Instr.size, Instr.mode, h]; rfl

/-- Settles O41: the computation on A after one dead cycle, then the write of A. -/
theorem accumulatorShiftsRewriteA : Obligations.AccumulatorShiftsRewriteA := by
  intro i s hm ho
  have hexec := exec_modify_acc hm ho s
  rw [modifyAcc, modifyFn_snd hm, modifyFn_fst, dead_eq, State.emit_flag] at hexec
  refine ⟨_, hexec, rfl, ?_, setNZ_NZFrom _ _, rfl, rfl, ?_,
    frame_emit_left.1 ((setNZ_setFlag_frame .c _ _ _).trans (setReg_frame .a _ _))⟩
  · rw [State.setA_flag, setNZ_flag_other _ _ (by decide) (by decide), State.setFlag_flag_same]
  · rw [size_of_acc ho]; rfl

/-! ## Registers -/

/-- A one-byte instruction that writes a register, with N and Z from it, after one dead cycle. -/
theorem writes_register_of_exec {i : Instr} {r : Reg} {v : Byte} {s : State} (hsize : i.size = 1)
    (hexec : exec i s = .next (setNZ v ((s.emit [.dead]).setReg r v))) :
    ∃ t, exec i s = .next t ∧ t.reg r = v ∧ NZFrom v t ∧ t.pc = s.pc ∧ t.trace = s.trace ++ [.dead] ∧
      t.cycles + i.size = s.cycles + 2 ∧ Frame [r] [.n, .z] [] s t := by
  refine ⟨_, hexec, ?_, setNZ_NZFrom _ _, ?_, ?_, ?_, frame_emit_left.1 (setNZ_setReg_frame r v _)⟩
  · rw [setNZ_reg, State.setReg_reg_same]
  · rw [setNZ_pc, State.setReg_pc, State.emit_pc]
  · cases r <;> rfl
  · rw [setNZ_cycles, State.setReg_cycles, hsize]; rfl

/-- INX, INY, DEX and DEY write the register with itself and 1, or 255, which is one less modulo 256 (R152 to R155). -/
theorem index_meaning {i : Instr} {r : Reg} {n : Nat}
    (h : (i, r, n) ∈ [(.inx, Reg.x, 1), (.iny, .y, 1), (.dex, .x, 255), (.dey, .y, 255)]) :
    i.size = 1 ∧ n < 256 ∧ ∀ s, exec i s = .next (setNZ (s.reg r + BitVec.ofNat 8 n)
      ((s.emit [.dead]).setReg r (s.reg r + BitVec.ofNat 8 n))) := by
  have hdec (v : Byte) : v - 1#8 = v + BitVec.ofNat 8 255 := BitVec.sub_eq_add_neg v 1#8
  simp only [List.mem_cons, List.not_mem_nil, or_false, Prod.mk.injEq] at h
  rcases h with ⟨rfl, rfl, rfl⟩ | ⟨rfl, rfl, rfl⟩ | ⟨rfl, rfl, rfl⟩ | ⟨rfl, rfl, rfl⟩
  · exact ⟨rfl, by decide, fun _ => rfl⟩
  · exact ⟨rfl, by decide, fun _ => rfl⟩
  · exact ⟨rfl, by decide, fun s => by rw [← hdec]; rfl⟩
  · exact ⟨rfl, by decide, fun s => by rw [← hdec]; rfl⟩

/-- Settles O42: each is the write of its register, with the number added modulo 256. -/
theorem indexRegistersCountModulo256 : Obligations.IndexRegistersCountModulo256 := by
  intro i r n s h
  obtain ⟨hsize, hn, hexec⟩ := index_meaning h
  obtain ⟨t, ht, hreg, hnz, hrest⟩ := writes_register_of_exec hsize (hexec s)
  refine ⟨t, ht, ?_, hreg ▸ hnz, hrest⟩
  rw [hreg, BitVec.toNat_add, BitVec.toNat_ofNat, Nat.add_mod_mod]

/-- TAX, TAY, TXA, TYA and TSX write the destination with the source (R170 to R174). -/
theorem transfer_meaning {i : Instr} {src dst : Reg}
    (h : (i, src, dst) ∈
      [(.tax, Reg.a, Reg.x), (.tay, .a, .y), (.txa, .x, .a), (.tya, .y, .a), (.tsx, .s, .x)]) :
    i.size = 1 ∧ ∀ s, exec i s = .next (setNZ (s.reg src) ((s.emit [.dead]).setReg dst (s.reg src))) := by
  simp only [List.mem_cons, List.not_mem_nil, or_false, Prod.mk.injEq] at h
  rcases h with ⟨rfl, rfl, rfl⟩ | ⟨rfl, rfl, rfl⟩ | ⟨rfl, rfl, rfl⟩ | ⟨rfl, rfl, rfl⟩ | ⟨rfl, rfl, rfl⟩ <;>
    exact ⟨rfl, fun _ => rfl⟩

/-- Settles O43: each is the write of its destination. -/
theorem transfersCopyARegister : Obligations.TransfersCopyARegister := by
  intro i src dst s h
  obtain ⟨hsize, hexec⟩ := transfer_meaning h
  exact writes_register_of_exec hsize (hexec s)

/-- Settles O44: TXS is the write of S after one dead cycle (R175). -/
theorem txsWritesNoFlag : Obligations.TxsWritesNoFlag := fun s =>
  ⟨_, rfl, rfl, rfl, rfl, rfl, frame_emit_left.1 (setReg_frame .s s.x (s.emit [.dead]))⟩

/-! ## Pushes and pulls of one byte -/

/-- Settles O45: the push of A after one dead cycle, then `setNZ`. -/
theorem phaPushesA : Obligations.PhaPushesA := by
  intro s hwf
  rw [stackAt_zero]
  refine ⟨_, exec_pha s, ?_, push_sp s.a _, setNZ_NZFrom s.a _, push_pc s.a _, ?_, ?_,
    frame_emit_left.1 ((push_frame s.a _).trans (setNZ_frame s.a _))⟩
  · rw [setNZ_peek]; exact push_peek_same s.a hwf
  · rw [setNZ_trace, push_trace, State.emit_trace, List.append_assoc]; rfl
  · rw [setNZ_cycles, push_cycles]; rfl

/-- Settles O46: the push of P after one dead cycle. -/
theorem phpPushesPAsStored : Obligations.PhpPushesPAsStored := by
  intro s hwf
  rw [stackAt_zero]
  refine ⟨_, exec_php s, push_peek_same s.p hwf, push_sp _ _, push_pc _ _, ?_, ?_,
    frame_emit_left.1 (push_frame s.p _)⟩
  · rw [push_trace, State.emit_trace, List.append_assoc]; rfl
  · rw [push_cycles]; rfl

/-- What a longer list of registers, flags and addresses leaves out is as before too. -/
theorem Frame.mono {rs rs' : List Reg} {fs fs' : List Flag} {ws ws' : List Word} {s t : State}
    (h : Frame rs fs ws s t) (hrs : rs ⊆ rs') (hfs : fs ⊆ fs') (hws : ws ⊆ ws') : Frame rs' fs' ws' s t := by
  obtain ⟨hreg, hflag, hpeek, hpresent, hfaulted⟩ := h
  exact ⟨fun r hr => hreg r fun hm => hr (hrs hm), fun f hf => hflag f fun hm => hf (hfs hm),
    fun addr ha => hpeek addr fun hm => ha (hws hm), hpresent, hfaulted⟩

theorem pulled_frame (s : State) : Frame [.s] [] [] s (pulled s) := frame_emit_right.2 (setReg_frame .s _ s)

/-- Settles O47: the pull after two dead cycles, then the write of A with N and Z, or of P. -/
theorem pullsLoadAOrP : Obligations.PullsLoadAOrP := by
  intro s
  refine ⟨⟨_, exec_pla s, rfl, setNZ_NZFrom _ _, rfl, rfl, rfl, rfl, ?_⟩,
    _, exec_plp s, rfl, rfl, rfl, rfl, rfl, (pulled_frame s).trans (setP_frame _ _)⟩
  exact ((pulled_frame s).trans (setNZ_setReg_frame .a _ _)).mono (by decide) (by decide) (by decide)

end Sys2Proof.Machine
end

section
/-! SUPPORT. The cycle table (70_reset_and_hazards.md R271): the count of each instruction's opcode, with its variant, is
what its meaning and its own bytes take; then the statement StepTakesTheCyclesOfTheTable. -/

namespace Sys2Proof.Machine

/-- The access an operation class makes at an effective address. -/
def accessOf : OpClass → Option AccessClass
  | .r => some .r
  | .w => some .w
  | .m => some .m
  | _ => none

theorem ite_succ_eq (c : Bool) (n : Nat) : (if c then n + 1 else n) = n + if c then 1 else 0 := by cases c <;> rfl

/-- R104's count of an instruction on memory is R271's, with a page crossed where a class-R instruction says so. -/
theorem accessCycles_eq_table {i : Instr} {cls : AccessClass} {m : MemMode}
    (h : i.operation.opClass.bind accessOf = some cls) (ho : i.operand = .mem m) (pc : Word) (s : State) :
    accessCycles cls m s = baseCycles i.opcode + extraCycles i pc s := by
  cases i <;> first
    | (cases h; done)
    | (cases ho; done)
    | (cases h; cases ho; dsimp only [Instr.opcode]; first
        | rfl
        | exact ite_succ_eq _ _)

/-- The same of a class-R instruction, whose operand may be immediate. -/
theorem readCycles_eq_table {i : Instr} (h : i.operation.opClass = some .r) (pc : Word) (s : State) :
    readCycles i s = baseCycles i.opcode + extraCycles i pc s := by
  rcases operand_of_read h with ⟨d, ho⟩ | ⟨m, ho⟩
  · cases i <;> first
      | (cases h; done)
      | (cases ho; done)
      | (dsimp only [Instr.opcode]; rfl)
  · rw [readCycles, ho]
    exact accessCycles_eq_table (by rw [h]; rfl) ho pc s

/-- A shift of A takes 2 cycles (R271). -/
theorem baseCycles_acc {i : Instr} (h : i.operation.opClass = some .m) (ho : i.operand = .acc) :
    baseCycles i.opcode = 2 := by
  cases i <;> first
    | (cases h; done)
    | (cases ho; done)
    | rfl

/-- So does a class-I instruction, which is one byte long. -/
theorem baseCycles_implied {i : Instr} (h : i.operation.opClass = some .i) : baseCycles i.opcode = 2 ∧ i.size = 1 := by
  cases i <;> first
    | (cases h; done)
    | exact ⟨rfl, rfl⟩

/-- A branch is two bytes long and takes 2 cycles where it is not taken. -/
theorem baseCycles_branch {i : Instr} {f : Flag} {v : Bool} (h : branchCondition i.operation = some (f, v)) :
    baseCycles i.opcode = 2 ∧ i.size = 2 := by
  cases i <;> first
    | (cases h; done)
    | (dsimp only [Instr.opcode]; exact ⟨rfl, rfl⟩)

/-- The variant is for class R and the branches only. -/
theorem extraCycles_eq_zero {i : Instr} (hr : i.operation.opClass ≠ some .r) (hb : i.operation.opClass ≠ some .b)
    (pc : Word) (s : State) : extraCycles i pc s = 0 := by
  unfold extraCycles
  split
  · exact absurd ‹_› hr
  · exact absurd ‹_› hb
  · rfl

theorem extraCycles_branch {i : Instr} {f : Flag} {v : Bool} {d : Byte} (h : branchCondition i.operation = some (f, v))
    (ho : i.operand = .rel d) (pc : Word) (s : State) :
    extraCycles i pc s = if s.flag f = v then (if crossed pc (pc + sext16 d) then 2 else 1) else 0 := by
  rw [extraCycles, opClass_of_branch h, ho]
  simp only [h]

theorem readFn_cycles (o : Operation) (v : Byte) (s : State) : (readFn o v s).cycles = s.cycles := by cases o <;> rfl

theorem modifyFn_cycles (o : Operation) (old : Byte) (s : State) : (modifyFn o old s).2.cycles = s.cycles := by
  cases o <;> rfl

theorem impliedFn_cycles (o : Operation) (s : State) : (impliedFn o s).cycles = s.cycles := by cases o <;> rfl

/-- What a meaning takes, with a cycle for each of the instruction's own bytes, is the table's count and variant. -/
theorem exec_cycles {i : Instr} {s t : State} (h : exec i s = .next t) :
    t.cycles + i.size = s.cycles + baseCycles i.opcode + extraCycles i s.pc s := by
  cases shape i with
  | read hr =>
    rw [exec_read hr] at h
    cases h
    rw [readFn_cycles, State.emit_cycles, Nat.add_assoc, ← readCycles_eq hr, readCycles_eq_table hr s.pc, Nat.add_assoc]
  | @store _ r m hw ho =>
    rw [exec_store hw ho, storeTo_eq] at h
    cases h
    have hclass := opClass_of_store hw
    have htable := accessCycles_eq_table (cls := .w) (by rw [hclass]; rfl) ho s.pc s
    rw [accessCycles_eq (by decide), ← size_of_mem ho] at htable
    rw [memWrite_cycles, State.emit_cycles]
    omega
  | @modifyMem _ m hm ho =>
    rw [exec_modify_mem_eq hm ho] at h
    cases h
    have htable := accessCycles_eq_table (cls := .m) (by rw [hm]; rfl) ho s.pc s
    rw [accessCycles_modify hm ho] at htable
    rw [memWrite_cycles, modifyFn_cycles, State.emit_cycles, List.length_append, List.length_cons,
      List.length_singleton]
    omega
  | modifyAcc hm ho =>
    rw [exec_modify_acc hm ho] at h
    cases h
    rw [baseCycles_acc hm ho, extraCycles_eq_zero (by rw [hm]; decide) (by rw [hm]; decide), size_of_acc ho]
    exact congrArg (· + 1) (modifyFn_cycles i.operation s.a (dead s))
  | @branch _ f v d hb ho =>
    rw [exec_branch hb ho] at h
    cases h
    obtain ⟨hbase, hsize⟩ := baseCycles_branch hb
    rw [hbase, hsize, extraCycles_branch hb ho]
    by_cases hf : s.flag f = v
    · rw [branch_of_eq hf, if_pos hf, State.setPc_cycles, State.emit_cycles]
      split <;> rfl
    · rw [branch_of_ne hf, if_neg hf]
  | implied hi =>
    rw [exec_implied hi] at h
    cases h
    obtain ⟨hbase, hsize⟩ := baseCycles_implied hi
    rw [hbase, hsize, extraCycles_eq_zero (by rw [hi]; decide) (by rw [hi]; decide), impliedFn_cycles]
    rfl
  | jmpAbs w => cases h; dsimp only [Instr.opcode]; rfl
  | jmpInd w => rw [exec_jmpInd] at h; cases h; dsimp only [Instr.opcode]; rfl
  | jsr w =>
    rw [exec_jsr] at h
    cases h
    rw [State.setPc_cycles, pushWord_cycles]
    dsimp only [Instr.opcode]
    rfl
  | rts => rw [exec_rts] at h; cases h; rfl
  | brk =>
    rw [exec_brk, trapEntry_eq] at h
    cases h
    rw [State.setFlag_cycles, State.setPc_cycles, State.emit_cycles, trapPushed_cycles]; rfl
  | rti => rw [exec_rti] at h; cases h; rfl
  | pha =>
    rw [exec_pha] at h
    cases h
    rw [setNZ_cycles, push_cycles]; rfl
  | php =>
    rw [exec_php] at h
    cases h
    rw [push_cycles]; rfl
  | pla => rw [exec_pla] at h; cases h; rfl
  | plp => rw [exec_plp] at h; cases h; rfl
  | undefined op => cases h

/-- Settles O12: the fetch takes a cycle for each of the instruction's own bytes, and changes nothing that the variant
looks at. -/
theorem stepTakesTheCyclesOfTheTable : Obligations.StepTakesTheCyclesOfTheTable := by
  intro s t i rest hrun hdec h
  obtain ⟨-, hrunDecoded⟩ := stepRunsTheDecodedInstruction
  rw [hrunDecoded s i rest hrun hdec] at h
  have hcycles : t.cycles + i.size = s.cycles + i.size + baseCycles i.opcode +
      extraCycles i (s.pc + BitVec.ofNat 16 i.size) s := exec_cycles h
  omega

end Sys2Proof.Machine
end

section
/-! SUPPORT. Branches, subroutines and the trap (45_control.md, 60_exceptions.md section 3): a branch's target as a
number, the stack locations of a state whose S has moved, and what BRK leaves in every state; then the statements
BranchesAreTakenOnTheirFlag, RtsReturnsFromJsr, BrkEntersTheTrap, RtiUndoesBrk and AbsentMemoryStepTakesTheTrap. -/

namespace Sys2Proof.Machine

/-! ## Branches -/

theorem sext16_toNat (d : Byte) : (sext16 d).toNat = if d.toNat < 128 then d.toNat else d.toNat + 0xFF00 := by
  revert d; decide

/-- A branch's target, modulo 65536 (45_control.md R200). -/
theorem add_sext16_toNat (pc : Word) (d : Byte) :
    ((pc + sext16 d).toNat : Int) = ((pc.toNat : Int) + d.toInt) % 65536 := by
  have hpc := pc.isLt
  have hd := d.isLt
  rw [BitVec.toNat_add, sext16_toNat, byte_toInt]
  split <;> omega

/-- A page is crossed where the high byte, the address by 256, changes (40_sequencer_addressing.md R103). -/
theorem ite_crossed {α : Type} (base ea : Word) (x y : α) :
    (if crossed base ea then x else y) = if ea.toNat / 256 = base.toNat / 256 then y else x := by
  have hiff : crossed base ea = false ↔ ea.toNat / 256 = base.toNat / 256 := by
    rw [crossed, bne_eq_false_iff_eq, ← hi_toNat, ← hi_toNat, BitVec.toNat_inj]
  cases hc : crossed base ea
  · rw [if_neg (by decide), if_pos (hiff.1 hc)]
  · rw [if_pos rfl, if_neg fun h => by rw [hiff.2 h] at hc; cases hc]

/-- Settles O49: a branch that is taken is the dead cycles and the write of PC; one that is not is nothing. -/
theorem branchesAreTakenOnTheirFlag : Obligations.BranchesAreTakenOnTheirFlag := by
  intro i f v s h
  obtain ⟨d, ho⟩ := operand_of_branch (opClass_of_branch h)
  obtain ⟨-, hsize⟩ := baseCycles_branch h
  refine ⟨d, _, ho, exec_branch h ho s, ?_⟩
  rw [hsize]
  by_cases hf : s.flag f = v
  · rw [branch_of_eq hf, ite_crossed, if_pos hf, if_pos hf, if_pos hf]
    refine ⟨add_sext16_toNat s.pc d, rfl, ?_, frame_setPc_right.2 (frame_emit_right.2 (Frame.refl s))⟩
    rw [State.setPc_cycles, State.emit_cycles, State.setPc_pc]
    split <;> rfl
  · rw [branch_of_ne hf, if_neg hf, if_neg hf, if_neg hf]
    exact ⟨rfl, (List.append_nil _).symm, rfl, Frame.refl s⟩

/-! ## The stack of a state whose S has moved -/

/-- Where S is `j` lower, the location `k` above it is the one `k - j` above S before. -/
theorem stackAt_of_sp {s t : State} {j : Int} (h : t.sp = s.sp - BitVec.ofInt 8 j) (k : Int) :
    stackAt k t = stackAt (k - j) s := by
  have hoffset : s.sp - BitVec.ofInt 8 j + BitVec.ofInt 8 k = s.sp + BitVec.ofInt 8 (k - j) := by
    rw [Int.sub_eq_add_neg, BitVec.ofInt_add, BitVec.ofInt_neg, BitVec.sub_eq_add_neg, BitVec.add_assoc,
      BitVec.add_comm (-_)]
  rw [stackAt, stackAt, h, hoffset]

/-- Settles O53: RTS pulls the two bytes that JSR pushed, from where it pushed them. -/
theorem rtsReturnsFromJsr : Obligations.RtsReturnsFromJsr := by
  intro w s hwf hp
  obtain ⟨-, t, ht, -, hsp, hhi, hlo, -⟩ := jsrPushesTheNextAddress w s hwf
  obtain ⟨u, hu, hpc, husp, -⟩ := rtsPullsPcWithoutIncrement.2 t
  refine ⟨t, u, ht, hu, ?_, ?_⟩
  · have hat := stackAt_of_sp (j := 2) hsp
    rw [hpc, hat, hat]
    change w16 (t.peek (stackAt 0 s)) (t.peek (stackAt (-1) s)) = s.pc
    rw [hhi, hlo, if_pos hp, if_pos hp, w16_hi_lo]
  · rw [husp, hsp, BitVec.sub_add_cancel]

/-! ## The trap -/

theorem stackAt_neg_two (s : State) : stackAt (-2) s = stackAddr (s.sp - 2#8) :=
  congrArg stackAddr (BitVec.sub_eq_add_neg s.sp 2#8).symm

/-- The trap's three pushes change S and their three bytes, and nothing else that `Frame` speaks of. -/
theorem trapPushed_frame (s : State) :
    Frame [.s] [] [stackAt 0 s, stackAt (-1) s, stackAt (-2) s] s (trapPushed s) := by
  have hframe := (pushWord_frame s.pc s).trans (push_frame s.p (pushWord s.pc s))
  rw [pushWord_sp, ← stackAt_neg_two, ← stackAt_neg_one, ← stackAt_zero] at hframe
  exact hframe.mono (by decide) (by decide) (List.Subset.refl _)

/-- The state in which BRK enters the trap: after its dead cycle, with PC past the skipped byte. -/
def brkEntry (s : State) : State := (s.emit [.dead]).setPc (s.pc + 1#16)

theorem brkEntry_sp (s : State) : (brkEntry s).sp = s.sp := rfl
theorem brkEntry_p (s : State) : (brkEntry s).p = s.p := rfl
theorem brkEntry_pc (s : State) : (brkEntry s).pc = s.pc + 1#16 := rfl
theorem brkEntry_memPresent (s : State) : (brkEntry s).memPresent = s.memPresent := rfl

theorem brkEntry_stackAt (k : Int) (s : State) : stackAt k (brkEntry s) = stackAt k s := rfl

/-- BRK in every state (45_control.md R212). -/
theorem brk_spec (s : State) : ∃ t, exec .brk s = .next t ∧
    t.pc = w16 (s.peek 0xFFFF#16) (s.peek 0xFFFE#16) ∧ t.sp = s.sp - 3#8 ∧ t.flag .b = true ∧
    (∀ addr, t.peek addr = (trapPushed (brkEntry s)).peek addr) ∧
    t.trace = s.trace ++ [.dead, .write (stackAt 0 s) (hi (s.pc + 1#16)), .write (stackAt (-1) s) (lo (s.pc + 1#16)),
      .write (stackAt (-2) s) s.p, .read 0xFFFE#16 (s.peek 0xFFFE#16), .read 0xFFFF#16 (s.peek 0xFFFF#16)] ∧
    t.cycles = s.cycles + 6 ∧ Frame [.s] [.b] [stackAt 0 s, stackAt (-1) s, stackAt (-2) s] s t := by
  have hexec := exec_brk s
  rw [trapEntry_eq] at hexec
  refine ⟨_, hexec, ?_, ?_, State.setFlag_flag_same _ _ _, fun addr => ?_, ?_, ?_, ?_⟩
  · rw [State.setFlag_pc, State.setPc_pc]; rfl
  · rw [State.setFlag_sp, State.setPc_sp, State.emit_sp, trapPushed_sp]; rfl
  · rw [State.setFlag_peek, State.setPc_peek, State.emit_peek]; rfl
  · rw [State.setFlag_trace, State.setPc_trace, State.emit_trace, trapPushed_trace, stackAt_zero, stackAt_neg_one,
      stackAt_neg_two, State.setPc_trace, State.emit_trace, List.append_assoc, List.append_assoc]
    rfl
  · rw [State.setFlag_cycles, State.setPc_cycles, State.emit_cycles, trapPushed_cycles]; rfl
  · have hframe := trapPushed_frame (brkEntry s)
    simp only [brkEntry_stackAt] at hframe
    exact (frame_setPc_right.2 (frame_emit_right.2 hframe)).trans (setFlag_frame .b true _)

/-- Settles O54: BRK's state after its dead cycle enters the trap, whose pushes lie on the stack. -/
theorem brkEntersTheTrap : Obligations.BrkEntersTheTrap := by
  intro s hwf
  obtain ⟨t, ht, hpc, hsp, hb, hpeek, htrace, hcycles, hframe⟩ := brk_spec s
  have hentry : (brkEntry s).mem.wf = true := hwf
  refine ⟨t, ht, hpc, hsp, hb, ?_, ?_, ?_, htrace, ?_, hframe⟩
  · have hpch := trapPushed_peek_pch hentry
    rwa [← hpeek, brkEntry_sp, brkEntry_memPresent, brkEntry_pc, ← stackAt_zero] at hpch
  · have hpcl := trapPushed_peek_pcl hentry
    rwa [← hpeek, brkEntry_sp, brkEntry_memPresent, brkEntry_pc, ← stackAt_neg_one] at hpcl
  · have hpushed := trapPushed_peek_p hentry
    rwa [← hpeek, brkEntry_sp, brkEntry_memPresent, brkEntry_p, ← stackAt_neg_two] at hpushed
  · rw [hcycles]; rfl

/-- Settles O56: RTI pulls the three bytes that BRK pushed, from where it pushed them, and pulls no other. -/
theorem rtiUndoesBrk : Obligations.RtiUndoesBrk := by
  intro s hwf hp
  obtain ⟨t, ht, -, hsp, -, hpch, hpcl, hpushed, -, -, hreg, -, hpeek, hpresent, hfaulted⟩ := brkEntersTheTrap s hwf
  obtain ⟨u, hu, hup, hpc, husp, -, -, kreg, -, kpeek, kpresent, kfaulted⟩ := rtiRestoresPAndPc.2 t
  have hat := stackAt_of_sp (j := 3) hsp
  have hsp' : u.sp = s.sp := by rw [husp, hsp, BitVec.sub_add_cancel]
  have hp' : u.p = s.p := by
    rw [hup, hat]
    change t.peek (stackAt (-2) s) = s.p
    rw [hpushed, if_pos hp]
  refine ⟨t, u, ht, hu, hp', ?_, fun r _ => ?_, fun f _ => congrArg (·.getLsbD f.bit) hp', fun addr ha => ?_,
    kpresent.trans hpresent, kfaulted.trans hfaulted⟩
  · rw [hpc, hat, hat]
    change w16 (t.peek (stackAt 0 s)) (t.peek (stackAt (-1) s)) = s.pc + 1#16
    rw [hpch, hpcl, if_pos hp, if_pos hp, w16_hi_lo]
  · by_cases hs : r = .s
    · rw [hs]; exact hsp'
    · have hr : r ∉ [Reg.s] := by simpa using hs
      exact (kreg r hr).trans (hreg r hr)
  · exact (kpeek addr (List.not_mem_nil)).trans (hpeek addr ha)

/-- The state after the fetch of a byte at PC from an absent Memory, in a new step (20_memory.md R44). -/
def absentFetch (s : State) : State :=
  { s with pc := s.pc + 1#16, cycles := s.cycles + 1, trace := [.read s.pc 0x00#8] }

/-- Where Memory is absent the byte at PC is BRK's. -/
theorem step_absent {s : State} (hrun : s.faulted = none) (habs : s.memPresent = false) :
    step s = exec .brk (absentFetch s) := by
  obtain ⟨-, hrunDecoded⟩ := stepRunsTheDecodedInstruction
  have hdec : decode [s.peek s.pc, s.peek (s.pc + 1#16), s.peek (s.pc + 2#16)] = .ok (.brk, [0x00#8, 0x00#8]) := by
    rw [peek_absent habs, peek_absent habs, peek_absent habs]; rfl
  have hsize : Instr.brk.size = 1 := rfl
  rw [hrunDecoded s _ _ hrun hdec, hsize, List.range_one, List.map_singleton, BitVec.add_zero, peek_absent habs]
  rfl

/-- Settles O25: the step is BRK's trap, and every byte reads as 0x00 before and after. -/
theorem absentMemoryStepTakesTheTrap : Obligations.AbsentMemoryStepTakesTheTrap := by
  intro s hrun habs
  obtain ⟨t, ht, hpc, hsp, hb, -, htrace, hcycles, hreg, hflag, -, hpresent, hfaulted⟩ := brk_spec (absentFetch s)
  have hzero (addr : Word) : (absentFetch s).peek addr = 0x00#8 := peek_absent (s := absentFetch s) habs addr
  have hnext : (absentFetch s).pc + 1#16 = s.pc + 2#16 := BitVec.add_assoc _ _ _
  rw [hzero, hzero] at hpc htrace
  rw [hnext] at htrace
  exact ⟨t, (step_absent hrun habs).trans ht, hpc, hsp, hb, hcycles, htrace, hreg, hflag,
    fun addr _ => (peek_absent (hpresent.trans habs) addr).trans (peek_absent habs addr).symm, hpresent, hfaulted⟩

end Sys2Proof.Machine
end

section
/-! SUPPORT. Which instruction writes what (10_state.md sections 1 and 2): each meaning has a frame whose registers and
flags the lists name; then the statements RegistersHaveTheListedWriters, FlagsHaveTheListedWriters and
MemoryHasTheListedWriters. -/

namespace Sys2Proof.Machine

/-- The operations that write a register in every mode they have (10_state.md R10 to R13). -/
def writersOf : Reg → List Operation
  | .a => [.lda, .ora, .and, .eor, .adc, .sbc, .txa, .tya, .pla]
  | .x => writersOfX
  | .y => writersOfY
  | .s => writersOfS

/-- Whether the lists name an instruction as a writer of a register. -/
def writesReg (i : Instr) : Reg → Bool
  | .a => writesA i
  | .x => i.operation ∈ writersOfX
  | .y => i.operation ∈ writersOfY
  | .s => i.operation ∈ writersOfS

theorem writesReg_of_mem {i : Instr} {r : Reg} (h : i.operation ∈ writersOf r) : writesReg i r = true := by
  cases r with
  | a => exact Bool.or_eq_true_iff.2 (.inl (decide_eq_true h))
  | _ => exact decide_eq_true h

/-- `t` differs from `s` in registers and flags that `o` is listed as a writer of, and in memory, PC, the trace and the
counter. -/
def ListedFrame (o : Operation) (s t : State) : Prop :=
  ∃ rs fs ws, Frame rs fs ws s t ∧ (∀ r ∈ rs, o ∈ writersOf r) ∧ ∀ f ∈ fs, o ∈ writersOfFlag f

theorem readFn_listed {o : Operation} (h : o.opClass = some .r) (v : Byte) (s : State) :
    ListedFrame o s (readFn o v s) := by
  cases o with
  | lda => exact ⟨_, _, _, setNZ_setReg_frame .a v s, by decide, by decide⟩
  | ldx => exact ⟨_, _, _, setNZ_setReg_frame .x v s, by decide, by decide⟩
  | ldy => exact ⟨_, _, _, setNZ_setReg_frame .y v s, by decide, by decide⟩
  | ora | and | eor => exact ⟨_, _, _, setNZ_setReg_frame .a _ s, by decide, by decide⟩
  | adc | sbc => exact ⟨_, _, _, addWithCarry_frame _ s, by decide, by decide⟩
  | cmp | cpx | cpy => exact ⟨_, _, _, compare_frame _ _ v s, by decide, by decide⟩
  | bit => exact ⟨_, _, _, bitTest_frame v s, by decide, by decide⟩
  | _ => cases h

theorem modifyFn_listed {o : Operation} (h : o.opClass = some .m) (old : Byte) (s : State) :
    ∃ fs, Frame [] fs [] s (modifyFn o old s).2 ∧ ∀ f ∈ fs, o ∈ writersOfFlag f := by
  cases o with
  | asl | lsr | rol | ror => exact ⟨_, setNZ_setFlag_frame .c _ _ s, by decide⟩
  | inc | dec => exact ⟨_, setNZ_frame _ s, by decide⟩
  | _ => cases h

theorem impliedFn_listed {o : Operation} (h : o.opClass = some .i) (s : State) :
    ListedFrame o s (impliedFn o s) := by
  cases o with
  | txa | tya => exact ⟨_, _, _, setNZ_setReg_frame .a _ s, by decide, by decide⟩
  | tax | tsx | inx | dex => exact ⟨_, _, _, setNZ_setReg_frame .x _ s, by decide, by decide⟩
  | tay | iny | dey => exact ⟨_, _, _, setNZ_setReg_frame .y _ s, by decide, by decide⟩
  | txs => exact ⟨_, _, _, setReg_frame .s _ s, by decide, by decide⟩
  | clc | sec => exact ⟨_, _, _, setFlag_frame .c _ s, by decide, by decide⟩
  | cli | sei => exact ⟨_, _, _, setFlag_frame .i _ s, by decide, by decide⟩
  | clv => exact ⟨_, _, _, setFlag_frame .v _ s, by decide, by decide⟩
  | cld | sed => exact ⟨_, _, _, setFlag_frame .d _ s, by decide, by decide⟩
  | nop => exact ⟨_, _, _, Frame.refl s, by decide, by decide⟩
  | _ => cases h

/-- Nothing but memory, PC, the trace and the counter may differ where no register and no flag does. -/
theorem listed_of_frame {ws : List Word} {s t : State} (h : Frame [] [] ws s t) (o : Operation) : ListedFrame o s t :=
  ⟨_, _, _, h, List.forall_mem_nil _, List.forall_mem_nil _⟩

/-- Every meaning but a shift of A changes registers and flags that its operation is listed for. -/
theorem exec_listed {i : Instr} {s t : State} (hacc : i.operand ≠ .acc) (h : exec i s = .next t) :
    ListedFrame i.operation s t := by
  cases shape i with
  | read hr =>
    rw [exec_read hr] at h
    cases h
    exact readFn_listed hr _ _
  | @store _ r m hw ho =>
    rw [exec_store hw ho, storeTo_eq] at h
    cases h
    exact listed_of_frame (frame_emit_left.1 (memWrite_frame _ _ _)) _
  | @modifyMem _ m hm ho =>
    rw [exec_modify_mem_eq hm ho] at h
    cases h
    obtain ⟨fs, hframe, hfs⟩ := modifyFn_listed hm (s.peek (effectiveAddress m s)) (s.emit (addressEvents .m m s ++
      [.read (effectiveAddress m s) (s.peek (effectiveAddress m s)), .dead]))
    refine ⟨_, _, _, (frame_emit_left.1 hframe).trans (memWrite_frame _ _ _), List.forall_mem_nil _, fun f hf => ?_⟩
    rw [List.append_nil] at hf
    exact hfs f hf
  | modifyAcc _ ho => exact absurd ho hacc
  | @branch _ f v d hb ho =>
    rw [exec_branch hb ho] at h
    cases h
    by_cases hf : s.flag f = v
    · rw [branch_of_eq hf]
      exact listed_of_frame (frame_setPc_right.2 (frame_emit_right.2 (Frame.refl s))) _
    · rw [branch_of_ne hf]
      exact listed_of_frame (Frame.refl s) _
  | implied hi =>
    rw [exec_implied hi] at h
    cases h
    exact impliedFn_listed hi (s.emit [.dead])
  | jmpAbs w =>
    cases h
    exact listed_of_frame (frame_setPc_right.2 (Frame.refl s)) .jmp
  | jmpInd w =>
    rw [exec_jmpInd] at h
    cases h
    exact listed_of_frame (frame_setPc_right.2 (frame_emit_right.2 (Frame.refl s))) .jmp
  | jsr w =>
    rw [exec_jsr] at h
    cases h
    refine ⟨_, _, _, frame_setPc_right.2 (frame_emit_left.1 (pushWord_frame s.pc _)), ?_, List.forall_mem_nil _⟩
    exact (by decide : ∀ r ∈ [Reg.s], Operation.jsr ∈ writersOf r)
  | rts =>
    obtain ⟨u, hu, -, -, -, -, hframe⟩ := rtsPullsPcWithoutIncrement.2 s
    cases h.symm.trans hu
    exact ⟨_, _, _, hframe, by decide, by decide⟩
  | brk =>
    obtain ⟨u, hu, -, -, -, -, -, -, hframe⟩ := brk_spec s
    cases h.symm.trans hu
    exact ⟨_, _, _, hframe, by decide, by decide⟩
  | rti =>
    obtain ⟨u, hu, -, -, -, -, -, hframe⟩ := rtiRestoresPAndPc.2 s
    cases h.symm.trans hu
    exact ⟨_, _, _, hframe, by decide, by decide⟩
  | pha =>
    rw [exec_pha] at h
    cases h
    exact ⟨_, _, _, frame_emit_left.1 ((push_frame s.a _).trans (setNZ_frame s.a _)), by decide, by decide⟩
  | php =>
    rw [exec_php] at h
    cases h
    exact ⟨_, _, _, frame_emit_left.1 (push_frame s.p _), by decide, by decide⟩
  | pla =>
    obtain ⟨⟨u, hu, -, -, -, -, -, -, hframe⟩, -⟩ := pullsLoadAOrP s
    cases h.symm.trans hu
    exact ⟨_, _, _, hframe, by decide, by decide⟩
  | plp =>
    obtain ⟨-, u, hu, -, -, -, -, -, hframe⟩ := pullsLoadAOrP s
    cases h.symm.trans hu
    exact ⟨_, _, _, hframe, by decide, by decide⟩
  | undefined op => cases h

/-- An instruction in the accumulator mode is of class M, and a writer of A. -/
theorem writesReg_of_acc {i : Instr} (ho : i.operand = .acc) :
    i.operation.opClass = some .m ∧ writesReg i .a = true := by
  cases i <;> first
    | (cases ho; done)
    | exact ⟨rfl, rfl⟩

/-- A shift of A changes A and the flags its operation is listed for. -/
theorem exec_acc_listed {i : Instr} {s t : State} (hm : i.operation.opClass = some .m) (ho : i.operand = .acc)
    (h : exec i s = .next t) : ∃ fs, Frame [.a] fs [] s t ∧ ∀ f ∈ fs, i.operation ∈ writersOfFlag f := by
  rw [exec_modify_acc hm ho] at h
  cases h
  obtain ⟨fs, hframe, hfs⟩ := modifyFn_listed hm s.a (dead s)
  refine ⟨fs ++ [], (frame_emit_left (es := [.dead])).1 (hframe.trans (setReg_frame .a _ _)), fun f hf => ?_⟩
  rw [List.append_nil] at hf
  exact hfs f hf

/-- What no list names an instruction as a writer of is as before. -/
theorem exec_unlisted {i : Instr} {s t : State} (h : exec i s = .next t) :
    (∀ r, writesReg i r = false → t.reg r = s.reg r) ∧
    ∀ f, i.operation ∉ writersOfFlag f → t.flag f = s.flag f := by
  obtain ⟨rs, fs, ws, ⟨hreg, hflag, -⟩, hrs, hfs⟩ : ∃ rs fs ws, Frame rs fs ws s t ∧
      (∀ r ∈ rs, writesReg i r = true) ∧ ∀ f ∈ fs, i.operation ∈ writersOfFlag f := by
    by_cases hacc : i.operand = .acc
    · obtain ⟨hm, ha⟩ := writesReg_of_acc hacc
      obtain ⟨fs, hframe, hfs⟩ := exec_acc_listed hm hacc h
      exact ⟨_, fs, _, hframe, List.forall_mem_singleton.2 ha, hfs⟩
    · obtain ⟨rs, fs, ws, hframe, hrs, hfs⟩ := exec_listed hacc h
      exact ⟨rs, fs, ws, hframe, fun r hr => writesReg_of_mem (hrs r hr), hfs⟩
  exact ⟨fun r hr => hreg r fun hmem => Bool.false_ne_true (hr.symm.trans (hrs r hmem)),
    fun f hf => hflag f fun hmem => hf (hfs f hmem)⟩

/-- Settles O19: A, X, Y and S are the registers by name. -/
theorem registersHaveTheListedWriters : Obligations.RegistersHaveTheListedWriters := by
  intro i s t h
  obtain ⟨hreg, -⟩ := exec_unlisted h
  exact ⟨hreg .a, fun hx => hreg .x (decide_eq_false hx), fun hy => hreg .y (decide_eq_false hy),
    fun hs => hreg .s (decide_eq_false hs)⟩

/-- Settles O20: a flag outside the frame of a meaning is as before. -/
theorem flagsHaveTheListedWriters : Obligations.FlagsHaveTheListedWriters := fun _ _ _ f h hf =>
  (exec_unlisted h).2 f hf

/-! ## Memory -/

theorem readFn_mem (o : Operation) (v : Byte) (s : State) : (readFn o v s).mem = s.mem := by cases o <;> rfl

theorem modifyFn_mem (o : Operation) (old : Byte) (s : State) : (modifyFn o old s).2.mem = s.mem := by
  cases o <;> rfl

theorem impliedFn_mem (o : Operation) (s : State) : (impliedFn o s).mem = s.mem := by cases o <;> rfl

/-- The stores, and the class-M instructions on memory, are listed as writers of memory. -/
theorem writesMemory_of_store {i : Instr} (h : i.operation.opClass = some .w) : writesMemory i = true := by
  cases i <;> first
    | (cases h; done)
    | rfl

theorem writesMemory_of_modify {i : Instr} {m : MemMode} (h : i.operation.opClass = some .m)
    (ho : i.operand = .mem m) : writesMemory i = true := by
  cases i <;> first
    | (cases h; done)
    | (cases ho; done)
    | rfl

/-- Settles O21: reads, implied instructions, branches, jumps and pulls write no byte; the others are listed. -/
theorem memoryHasTheListedWriters : Obligations.MemoryHasTheListedWriters := by
  intro i s t h hlist
  cases shape i with
  | read hr =>
    rw [exec_read hr] at h
    cases h
    exact readFn_mem _ _ _
  | store hw ho =>
    rw [writesMemory_of_store (opClass_of_store hw)] at hlist
    cases hlist
  | modifyMem hm ho =>
    rw [writesMemory_of_modify hm ho] at hlist
    cases hlist
  | modifyAcc hm ho =>
    rw [exec_modify_acc hm ho] at h
    cases h
    exact modifyFn_mem i.operation s.a (dead s)
  | @branch _ f v d hb ho =>
    rw [exec_branch hb ho] at h
    cases h
    by_cases hf : s.flag f = v
    · rw [branch_of_eq hf]; rfl
    · rw [branch_of_ne hf]
  | implied hi =>
    rw [exec_implied hi] at h
    cases h
    exact impliedFn_mem _ _
  | jmpAbs w => cases h; rfl
  | jmpInd w => rw [exec_jmpInd] at h; cases h; rfl
  | rts => rw [exec_rts] at h; cases h; rfl
  | rti => rw [exec_rti] at h; cases h; rfl
  | pla => rw [exec_pla] at h; cases h; rfl
  | plp => rw [exec_plp] at h; cases h; rfl
  | jsr w => cases hlist
  | brk => cases hlist
  | pha => cases hlist
  | php => cases hlist
  | undefined op => cases h

end Sys2Proof.Machine
end

section
/-! SUPPORT. The stack as a whole and the host's ports (20_memory.md sections 4 and 7, 70_reset_and_hazards.md section
1): what pushes and pulls of any number leave, byte by byte; then the statements StackIsLastInFirstOut,
ResetLoadsPcFromTheVector, ResetStateIsResetOfPowerOn and HostPortsWriteOneThing. -/

namespace Sys2Proof.Machine

/-! ## Many pushes, many pulls -/

theorem byte_ofNat_succ (n : Nat) : BitVec.ofNat 8 (n + 1) = 1#8 + BitVec.ofNat 8 n := by
  rw [Nat.add_comm, BitVec.ofNat_add]

theorem pushAll_sp (vs : List Byte) (s : State) : (pushAll vs s).sp = s.sp - BitVec.ofNat 8 vs.length := by
  induction vs generalizing s with
  | nil => exact (BitVec.sub_zero s.sp).symm
  | cons v vs ih =>
    rw [List.length_cons, byte_ofNat_succ, ← BitVec.sub_sub, ← push_sp v s]
    exact ih (push v s)

/-- Pushes write the locations from S downwards, as many as there are bytes. -/
theorem pushAll_peek_other {vs : List Byte} {s : State} {addr : Word}
    (h : ∀ k < vs.length, addr ≠ stackAddr (s.sp - BitVec.ofNat 8 k)) : (pushAll vs s).peek addr = s.peek addr := by
  induction vs generalizing s with
  | nil => rfl
  | cons v vs ih =>
    have hfirst : addr ≠ stackAddr s.sp := by simpa using h 0 (Nat.succ_pos _)
    refine (ih (s := push v s) fun k hk => ?_).trans (push_peek_other hfirst)
    rw [push_sp, BitVec.sub_sub, ← BitVec.ofNat_add, Nat.add_comm]
    exact h (k + 1) (Nat.succ_lt_succ hk)

theorem pullMany_peek (n : Nat) (addr : Word) (s : State) : (pullMany n s).2.peek addr = s.peek addr := by
  induction n generalizing s with
  | zero => rfl
  | succ n ih => exact ih (pull s).2

theorem pullMany_sp (n : Nat) (s : State) : (pullMany n s).2.sp = s.sp + BitVec.ofNat 8 n := by
  induction n generalizing s with
  | zero => exact (BitVec.add_zero s.sp).symm
  | succ n ih =>
    rw [byte_ofNat_succ, ← BitVec.add_assoc]
    exact ih (pull s).2

/-- The last of many pulls is a pull from the state the others leave. -/
theorem pullMany_succ_fst (n : Nat) (s : State) :
    (pullMany (n + 1) s).1 = (pullMany n s).1 ++ [(pull (pullMany n s).2).1] := by
  induction n generalizing s with
  | zero => rfl
  | succ n ih => exact congrArg ((pull s).1 :: ·) (ih (pull s).2)

/-- As many pulls as pushes take S back (95_test_vectors.md W9). -/
theorem pullMany_pushAll_sp (vs : List Byte) (s : State) : (pullMany vs.length (pushAll vs s)).2.sp = s.sp := by
  rw [pullMany_sp, pushAll_sp, BitVec.sub_add_cancel]

/-- Up to 255 further pushes leave the byte that was pushed first in its place. -/
theorem pushAll_push_peek (v : Byte) {vs : List Byte} {s : State} (hwf : s.mem.wf = true) (hp : s.memPresent = true)
    (hlength : vs.length < 256) : (pushAll vs (push v s)).peek (stackAddr s.sp) = v := by
  rw [pushAll_peek_other, push_peek_same v hwf, if_pos hp]
  intro k hk
  refine stackAddr_ne fun h => ?_
  rw [push_sp, BitVec.sub_sub, ← BitVec.ofNat_add] at h
  have hnat := congrArg BitVec.toNat h
  rw [BitVec.toNat_sub, BitVec.toNat_ofNat] at hnat
  have hsp := s.sp.isLt
  omega

/-- The bytes come back last in, first out, up to 256 of them: the first pushed lies where the last pull reads. -/
theorem pullMany_pushAll_fst {vs : List Byte} {s : State} (hwf : s.mem.wf = true) (hp : s.memPresent = true)
    (hlength : vs.length ≤ 256) : (pullMany vs.length (pushAll vs s)).1 = vs.reverse := by
  induction vs generalizing s with
  | nil => rfl
  | cons v vs ih =>
    have hrest : (pullMany vs.length (pushAll vs (push v s))).1 = vs.reverse :=
      ih (push_wf hwf) ((push_memPresent v s).trans hp) (Nat.le_of_succ_le hlength)
    have hlast : (pull (pullMany vs.length (pushAll vs (push v s))).2).1 = v := by
      rw [pull_eq, pullMany_peek, pullMany_pushAll_sp, push_sp, BitVec.sub_add_cancel]
      exact pushAll_push_peek v hwf hp hlength
    rw [List.length_cons, List.reverse_cons, pullMany_succ_fst]
    exact congrArg₂ (· ++ [·]) hrest hlast

/-- Settles O24: S goes back by as much as it went, and the bytes are read where they were pushed. -/
theorem stackIsLastInFirstOut : Obligations.StackIsLastInFirstOut := fun vs s hwf =>
  ⟨pullMany_pushAll_sp vs s, pullMany_pushAll_fst hwf⟩

/-! ## Reset -/

/-- Settles O58: the reset in full, with S lower by 3 as 253 higher modulo 256. -/
theorem resetLoadsPcFromTheVector : Obligations.ResetLoadsPcFromTheVector := by
  intro s
  have hsp : BitVec.ofNat 8 (s.sp.toNat + 253) = s.sp - 3#8 := by
    rw [BitVec.ofNat_add, BitVec.ofNat_toNat, BitVec.setWidth_eq]
    exact (BitVec.sub_eq_add_neg s.sp 3#8).symm
  rw [resetCommand_eq, hsp]

/-- Settles O59: both sides are evaluated. -/
theorem resetStateIsResetOfPowerOn : Obligations.ResetStateIsResetOfPowerOn := rfl

/-! ## The host's ports -/

/-- A host's write is the bus's, less the event: it is seen at its address only, and nowhere where Memory is absent
(20_memory.md R55, log entry 14). -/
theorem hostWrite_peek (addr other : Word) (v : Byte) {s : State} (hwf : s.mem.wf = true) :
    (hostWrite addr v s).peek other = if other = addr ∧ s.memPresent = true then v else s.peek other := by
  change (memWrite addr v s).peek other = _
  by_cases heq : other = addr
  · rw [heq, memWrite_peek_same addr v hwf]
    cases hp : s.memPresent with
    | true => simp
    | false => simp [peek_absent hp]
  · rw [memWrite_peek_other v s heq, if_neg fun h => heq h.1]

theorem hostWrite_eq (addr : Word) (v : Byte) (s : State) :
    hostWrite addr v s = { s with mem := (hostWrite addr v s).mem } := by
  unfold hostWrite; split <;> rfl

/-- Settles O60: the stack peek is a pull's read, and each write is one named write. -/
theorem hostPortsWriteOneThing : Obligations.HostPortsWriteOneThing := by
  intro s hwf
  exact ⟨congrArg (s.peek ·) (stackAddr_succ_eq_ofNat s.sp), rfl,
    fun addr other v => ⟨hostWrite_eq addr v s, hostWrite_peek addr other v hwf⟩, fun _ => rfl, fun _ => rfl,
    fun _ => rfl, fun _ => rfl, fun _ => rfl, fun _ => rfl, fun f g v => ⟨State.setFlag_flag f g v s, rfl⟩⟩

end Sys2Proof.Machine
end
